-- ==== Sys2Proof/Word.lean ====
section
/-! DEFINITION. The word types of the block's ports and registers (spec 20_memory.md R40, R42; 10_state.md R19). -/

namespace Sys2Proof

/-- A command word: 64 bits on the command port (R51). -/
abbrev CmdWord := BitVec 64

/-- A 32-bit register or read-port word, and the operand ARG of a command word (R37, R51). -/
abbrev Word32 := BitVec 32

/-- A 12-bit DAC code, index or increment (R10, R18). -/
abbrev Code := BitVec 12

/-- A 16-bit converter transport word (R81). -/
abbrev DacWord := BitVec 16

/-- An address on the register read port (R37). -/
abbrev RegAddr := BitVec 8

end Sys2Proof
end

