-- ==== Sys2Proof/Config.lean ====
section
/-! DEFINITION. The build parameters of 00_scope.md R8 and the example set P0 of R11. -/

namespace Sys2Proof

/-- The named parameters the model takes (R8). None has a value in the source; which sets are legal is
`Params.valid` in WellFormed.lean. -/
structure Params where
  /-- SINE_GAIN_I -/
  gainI : Nat
  /-- SINE_GAIN_Q -/
  gainQ : Nat
  /-- SINE_OFFSET_I -/
  offsetI : Nat
  /-- SINE_OFFSET_Q -/
  offsetQ : Nat
  /-- CLK_HZ -/
  clkHz : Nat
  /-- FS_RESET_HZ -/
  fsResetHz : Nat
  /-- LDAC_HOLD, in clock cycles; no rule reads it (R134) -/
  ldacHold : Nat
  /-- TICK_LATENCY, in clock cycles; no rule reads it (R134) -/
  tickLatency : Nat
deriving DecidableEq, Repr

/-- Parameter set P0 (R11): the spec's example. Its use in `State.reset` is a DESIGN CHOICE, unsafe
(log 1): R11 says it is not the hardware's value. -/
def Config.p0 : Params where
  gainI := 2047
  gainQ := 2047
  offsetI := 2048
  offsetQ := 2048
  clkHz := 80000000
  fsResetHz := 100000
  ldacHold := 1
  tickLatency := 1

end Sys2Proof
end

