-- ==== Sys2Proof/Syntax.lean ====
section
/-! DEFINITION. The block's instructions: one constructor per row of spec/opcode_table.json, and the names
its rules use for channels, reject causes and warning causes. -/

namespace Sys2Proof

/-- The channel index c of R15. -/
inductive Channel where
  | i
  | q
deriving DecidableEq, Repr

/-- The command words, the two events, the read port and the reset input: the rows of
spec/opcode_table.json, in the table's order. Operands have the widths of R51 and R56. -/
inductive Instr where
  /-- RAW c, v (R92); v is `s32(ARG)` -/
  | raw (c : Channel) (v : Word32)
  /-- DC c, mv (R94); mv is `s32(ARG)` -/
  | dc (c : Channel) (mv : Word32)
  /-- SINE c, f (R68); f is `s32(ARG)` -/
  | sine (c : Channel) (f : Word32)
  /-- TONE f (R69); f is `s32(ARG)` -/
  | tone (f : Word32)
  /-- MOD BPSK, selector 0 (R95) -/
  | modBpsk
  /-- MOD QPSK, selector 1 (R95) -/
  | modQpsk
  /-- MOD 8PSK, selector 2 (R95) -/
  | mod8psk
  /-- MOD 16QAM, selector 3 (R95) -/
  | mod16qam
  /-- SR r (R103); r is ARG, unsigned -/
  | sr (r : Word32)
  /-- FILTER OFF (R97) -/
  | filterOff
  /-- FILTER RRC (R97) -/
  | filterRrc
  /-- CLR_STATUS m (R98) -/
  | clrStatus (m : BitVec 3)
  /-- TIMER_EVENT: a pulse on `tick_req` (R99); no command word -/
  | timerEvent
  /-- TICK: the service of a pending tick request (R100); no command word -/
  | tick
  /-- READ a: one access on the register read port (R105); no command word -/
  | read (a : RegAddr)
  /-- RESET: the input `rst` (R124); no command word -/
  | reset
deriving DecidableEq, Repr

/-- Why a command word is rejected (R28; the codes are `rejectCode`). -/
inductive RejectCause where
  /-- cause 1: OP is 0x0 or 0x9..0xF -/
  | reservedOpcode
  /-- cause 2: RSV, CH or a reserved ARG bit is not 0 -/
  | reservedField
  /-- cause 3: MOD with ARG[2:0] ≥ 4 -/
  | reservedSelector
  /-- cause 4: SR with ARG = 0 or ARG > CLK_HZ -/
  | invalidRate
deriving DecidableEq, Repr

/-- Why a command warns (R29; the codes are `warnCode`). -/
inductive WarnCause where
  /-- cause 1: the RAW operand was clamped -/
  | rawClamped
  /-- cause 2: the DC operand was clamped -/
  | dcClamped
  /-- cause 3: the frequency lies outside [-Fs/2, Fs/2] -/
  | freqOutOfRange
deriving DecidableEq, Repr

/-- A text command of the command layer, its tokens read (R60). The layer lies outside the block (R5); only its
transcription into command words is a contract the spec keeps. -/
inductive TextCommand where
  /-- `raw i|q VALUE` -/
  | raw (c : Channel) (value : Int)
  /-- `dc i|q VOLTS`, VOLTS written as `digits / 10 ^ fractionDigits` -/
  | dc (c : Channel) (digits : Int) (fractionDigits : Nat)
  /-- `sine i|q FREQ [AMPL]` -/
  | sine (c : Channel) (freq : Int) (ampl : Option String)
  /-- `tone FREQ [AMPL]` -/
  | tone (freq : Int) (ampl : Option String)
  /-- `mod bpsk` -/
  | modBpsk
  /-- `mod qpsk` -/
  | modQpsk
  /-- `mod 8psk` -/
  | mod8psk
  /-- `mod 16qam` -/
  | mod16qam
  /-- `sr RATE` -/
  | sr (rate : Int)
  /-- `filter off` -/
  | filterOff
  /-- `filter rrc` -/
  | filterRrc
  /-- `reboot` -/
  | reboot
  /-- `help` -/
  | help
  /-- anything else -/
  | other (text : String)
deriving DecidableEq, Repr

/-- What the block receives of a text command (R60, R61). -/
inductive Transcription where
  /-- exactly one command word -/
  | word (w : CmdWord)
  /-- the reset input is asserted -/
  | resetInput
  /-- nothing: no word -/
  | nothing
deriving DecidableEq, Repr

end Sys2Proof
end

