-- ==== Sys2Proof/WellFormed.lean ====
section
/-! DEFINITION. Which parameter sets (R8, R9) and which instructions (R57, R103) are legal. -/

namespace Sys2Proof

/-- The rate check of R57: `1 <= arg <= CLK_HZ`. -/
def rateLegal (clkHz : Nat) (r : Word32) : Bool :=
  decide (1 ≤ r.toNat) && decide (r.toNat ≤ clkHz)

/-- An instruction is well formed when its operands are ones its rule accepts. Every operand but SR's rate
has a type that admits exactly the legal values (R56). -/
def Instr.wellFormed (p : Params) : Instr → Bool
  | .raw _ _ => true
  | .dc _ _ => true
  | .sine _ _ => true
  | .tone _ => true
  | .modBpsk => true
  | .modQpsk => true
  | .mod8psk => true
  | .mod16qam => true
  | .sr r => rateLegal p.clkHz r
  | .filterOff => true
  | .filterRrc => true
  | .clrStatus _ => true
  | .timerEvent => true
  | .tick => true
  | .read _ => true
  | .reset => true

/-- R9 for one channel: `SINE_OFFSET_c ≥ SINE_GAIN_c` and `SINE_OFFSET_c + SINE_GAIN_c ≤ 4095`. -/
def sineLegal (gain offset : Nat) : Bool :=
  decide (gain ≤ offset) && decide (offset + gain ≤ 4095)

/-- The clock and rate constraints of R8. -/
def clockLegal (clkHz fsResetHz : Nat) : Bool :=
  decide (1 ≤ clkHz) && decide (clkHz < 2 ^ 32) && decide (1 ≤ fsResetHz) && decide (fsResetHz ≤ clkHz)

/-- The timing constraints of R8 that can be checked on the parameters alone (log 12). -/
def timingLegal (ldacHold tickLatency : Nat) : Bool :=
  decide (1 ≤ ldacHold) && decide (1 ≤ tickLatency)

/-- A parameter set that the model does not refuse (R8, R9). -/
def Params.valid (p : Params) : Bool :=
  sineLegal p.gainI p.offsetI && sineLegal p.gainQ p.offsetQ && clockLegal p.clkHz p.fsResetHz &&
    timingLegal p.ldacHold p.tickLatency

end Sys2Proof
end

