-- ==== Sys2Proof/Decode.lean ====
section
/-! DEFINITION. Command words: the fields of R51, the decoder of R57 and R58, and the encoder of R53 to R56. -/

namespace Sys2Proof

/-- OP, bits 63:60 (R51). -/
def opField (w : CmdWord) : BitVec 4 := w.extractLsb' 60 4

/-- CH, bit 59 (R51). -/
def chField (w : CmdWord) : BitVec 1 := w.extractLsb' 59 1

/-- RSV, bits 58:32 (R51). -/
def rsvField (w : CmdWord) : BitVec 27 := w.extractLsb' 32 27

/-- ARG, bits 31:0 (R51). -/
def argField (w : CmdWord) : Word32 := w.extractLsb' 0 32

/-- The channel a CH bit names: 0 = I, 1 = Q (R15, R51). -/
def channelOf (b : BitVec 1) : Channel := if b = 0 then .i else .q

/-- The CH bit of a channel (R15, R51). -/
def channelBit : Channel → BitVec 1
  | .i => 0
  | .q => 1

/-- The checks of R57 that read the word alone, in R57's order: the first that applies. -/
def firstReject (w : CmdWord) : Option RejectCause :=
  if ¬ (1 ≤ (opField w).toNat ∧ (opField w).toNat ≤ 8) then some .reservedOpcode
  else if rsvField w ≠ 0 then some .reservedField
  else if 4 ≤ (opField w).toNat ∧ chField w ≠ 0 then some .reservedField
  else if (opField w).toNat = 5 ∧ (argField w).extractLsb' 3 29 ≠ 0 then some .reservedField
  else if (opField w).toNat = 7 ∧ (argField w).extractLsb' 1 31 ≠ 0 then some .reservedField
  else if (opField w).toNat = 8 ∧ (argField w).extractLsb' 3 29 ≠ 0 then some .reservedField
  else if (opField w).toNat = 5 ∧ 4 ≤ ((argField w).extractLsb' 0 3).toNat then some .reservedSelector
  else none

/-- The MOD instruction of a selector (R54): 4 to 7 name none. -/
def modOf (sel : BitVec 3) : Option Instr :=
  match sel.toNat with
  | 0 => some .modBpsk
  | 1 => some .modQpsk
  | 2 => some .mod8psk
  | 3 => some .mod16qam
  | _ => none

/-- The FILTER instruction of a selector (R55). -/
def filterOf (sel : BitVec 1) : Instr := if sel = 0 then .filterOff else .filterRrc

/-- The instruction OP selects, with its operands (R53, R56). -/
def assemble (w : CmdWord) : Option Instr :=
  match (opField w).toNat with
  | 1 => some (.raw (channelOf (chField w)) (argField w))
  | 2 => some (.dc (channelOf (chField w)) (argField w))
  | 3 => some (.sine (channelOf (chField w)) (argField w))
  | 4 => some (.tone (argField w))
  | 5 => modOf ((argField w).extractLsb' 0 3)
  | 6 => some (.sr (argField w))
  | 7 => some (filterOf ((argField w).extractLsb' 0 1))
  | 8 => some (.clrStatus ((argField w).extractLsb' 0 3))
  | _ => none

/-- The instruction of a command word, or the cause its rejection records: every check of R57 but the last,
which reads the parameter CLK_HZ (`decodeCommand`; log 9). -/
def decode (w : CmdWord) : Except RejectCause Instr :=
  match firstReject w with
  | some c => .error c
  | none =>
    match assemble w with
    | some i => .ok i
    | none => .error .reservedOpcode

/-- R57 whole: `decode`, then the check of SR's rate against CLK_HZ (cause 4). -/
def decodeCommand (p : Params) (w : CmdWord) : Except RejectCause Instr :=
  match decode w with
  | .error c => .error c
  | .ok i => if i.wellFormed p then .ok i else .error .invalidRate

/-- The command word with these fields and RSV = 0 (R51). -/
def commandWord (op : BitVec 4) (ch : BitVec 1) (arg : Word32) : CmdWord :=
  op ++ ch ++ (0 : BitVec 27) ++ arg

/-- The command word of an instruction (R53 to R56); events and the read port have none (R59). -/
def encode : Instr → Option CmdWord
  | .raw c v => some (commandWord 1 (channelBit c) v)
  | .dc c mv => some (commandWord 2 (channelBit c) mv)
  | .sine c f => some (commandWord 3 (channelBit c) f)
  | .tone f => some (commandWord 4 0 f)
  | .modBpsk => some (commandWord 5 0 0)
  | .modQpsk => some (commandWord 5 0 1)
  | .mod8psk => some (commandWord 5 0 2)
  | .mod16qam => some (commandWord 5 0 3)
  | .sr r => some (commandWord 6 0 r)
  | .filterOff => some (commandWord 7 0 0)
  | .filterRrc => some (commandWord 7 0 1)
  | .clrStatus m => some (commandWord 8 0 (m.setWidth 32))
  | .timerEvent => none
  | .tick => none
  | .read _ => none
  | .reset => none

/-- The command word whose bits, numbered as spec/opcode_table.json numbers them, are the low `nbits` of `w`:
the block's words are whole 64-bit words with bit 0 least significant (R12, R40), so no byte order enters. -/
def tableWord (nbits w : Nat) : Option CmdWord :=
  if w % 2 ^ nbits < 2 ^ 64 then some (BitVec.ofNat 64 (w % 2 ^ nbits)) else none

/-- What `decode` reads from a table word: nothing where it rejects the word. -/
def decodeTableWord (nbits w : Nat) : Option Instr :=
  match tableWord nbits w with
  | none => none
  | some word =>
    match decode word with
    | .ok i => some i
    | .error _ => none

/-- The word of an instruction, as what the block receives of a text command. -/
def wordOf (i : Instr) : Transcription :=
  match encode i with
  | some w => .word w
  | none => .nothing

/-- The instruction of a 32-bit signed operand, where the operand is one (R60: text that cannot be transcribed exactly
is not given to the block). -/
def withSigned (f : Word32 → Instr) (v : Int) : Transcription :=
  if -2 ^ 31 ≤ v ∧ v < 2 ^ 31 then wordOf (f (BitVec.ofInt 32 v)) else .nothing

/-- The transcription table of R60: VOLTS in millivolts where it has at most three fraction digits, AMPL dropped,
`reboot` the reset input, `help` and unknown text nothing. -/
def transcribe : TextCommand → Transcription
  | .raw c value => withSigned (.raw c) value
  | .dc c digits k => if k ≤ 3 then withSigned (.dc c) (digits * 10 ^ (3 - k)) else .nothing
  | .sine c freq _ => withSigned (.sine c) freq
  | .tone freq _ => withSigned .tone freq
  | .modBpsk => wordOf .modBpsk
  | .modQpsk => wordOf .modQpsk
  | .mod8psk => wordOf .mod8psk
  | .mod16qam => wordOf .mod16qam
  | .sr rate => if 0 ≤ rate ∧ rate < 2 ^ 32 then wordOf (.sr (BitVec.ofInt 32 rate)) else .nothing
  | .filterOff => wordOf .filterOff
  | .filterRrc => wordOf .filterRrc
  | .reboot => .resetInput
  | .help => .nothing
  | .other _ => .nothing

end Sys2Proof
end

