-- ==== Sys2Proof/Machine/Operands.lean ====
section
/-! DEFINITION. Operand computations: exact integers first, narrowed at the end (R13, R56, R63, R66, R92, R93, R103). -/

namespace Sys2Proof.Machine

/-- `s32(w)` (R13): the word as two's complement. -/
def s32 (w : Word32) : Int := w.toInt

/-- `clamp(v) = min(max(v, 0), 4095)` (R13). -/
def clamp (v : Int) : Int := min (max v 0) 4095

/-- An integer narrowed to a 12-bit register; exact on [0, 4095] (R84). -/
def code12 (v : Int) : Code := BitVec.ofInt 12 v

/-- The DC mapping of R93, from millivolts to an integer not yet clamped. Lean's `/` on integers is the floor
of R13 where the divisor is positive. -/
def dcmap (mv : Int) : Int := (2 * (500 - mv) * 4095 + 1000) / 2000

/-- The 32-bit phase word of R63: `u32(floor(f * 2^32 / Fs))`. -/
def phaseWord (f : Int) (fs : Nat) : Word32 := BitVec.ofInt 32 (f * 2 ^ 32 / (fs : Int))

/-- The frequency converter `incr(f, Fs)` of R63, for Fs ≥ 1: the top 12 bits of the phase word (R64). -/
def incr (f : Int) (fs : Nat) : Code := (phaseWord f fs).extractLsb' 20 12

/-- R66: f lies outside [-Fs/2, Fs/2], that is 2·|f| > Fs. -/
def freqOutside (f : Int) (fs : Nat) : Bool := decide ((fs : Int) < 2 * |f|)

/-- The reload count `floor(CLK_HZ / r)` of R103. -/
def reloadCount (clkHz : Nat) (r : Nat) : Word32 := BitVec.ofNat 32 (clkHz / r)

/-- The gain of a channel (R8). -/
def gainOf (p : Params) : Channel → Nat
  | .i => p.gainI
  | .q => p.gainQ

/-- The offset of a channel (R8). -/
def offsetOf (p : Params) : Channel → Nat
  | .i => p.offsetI
  | .q => p.offsetQ

end Sys2Proof.Machine
end

