-- ==== Sys2Proof/Machine/State.lean ====
section
/-! DEFINITION. The block's state (10_state.md), the reasons a step can stop, and the state after reset (R35). -/

namespace Sys2Proof.Machine

/-- The seven modulation modes of R20. A mode without a table cannot be held (R96). -/
inductive Mode where
  | raw
  | dc
  | sine
  | bpsk
  | qpsk
  | psk8
  | qam16
deriving DecidableEq, Repr

/-- One channel's registers IDX_c, INC_c, DC_c and RAW_c (R19). -/
structure ChannelRegs where
  /-- IDX_c, the phase accumulator (R22, R67) -/
  idx : Code
  /-- INC_c, the index increment (R24) -/
  inc : Code
  /-- DC_c (R94) -/
  dc : Code
  /-- RAW_c (R92) -/
  raw : Code
deriving DecidableEq, Repr

/-- The stored fields of STATUS (R27). Bit 3 is a live copy of TICK_PEND and is not stored twice; the word is
`State.statusWord`. -/
structure Status where
  /-- bit 0 -/
  cmdErr : Bool
  /-- bit 1 -/
  rangeWarn : Bool
  /-- bit 2 -/
  overrun : Bool
  /-- bits 7:4 (R28) -/
  errCause : BitVec 4
  /-- bits 11:8 (R29) -/
  warnCause : BitVec 4
deriving DecidableEq, Repr

/-- A transport event (R86). -/
inductive TransportEvent where
  /-- one latch strobe -/
  | latch
  /-- one word handed to the transport -/
  | word (w : DacWord)
deriving DecidableEq, Repr

/-- A step an agent offers to take (R16, R44). -/
inductive Request where
  /-- the host offers a command word (R52) -/
  | command (w : CmdWord)
  /-- the timer pulses `tick_req` (R99) -/
  | timerEvent
  /-- the dispatcher's turn (R100) -/
  | tick
  /-- the host reads a register (R105) -/
  | read (a : RegAddr)
  /-- the reset source asserts `rst` (R124) -/
  | reset
deriving DecidableEq, Repr

/-- The whole state of the block, with its parameters and the requests still to come. -/
structure State where
  /-- the build parameters (R8); no step writes them (log 1) -/
  params : Params
  /-- MODE (R20) -/
  mode : Mode
  /-- IDX_I, INC_I, DC_I, RAW_I -/
  chI : ChannelRegs
  /-- IDX_Q, INC_Q, DC_Q, RAW_Q -/
  chQ : ChannelRegs
  /-- FS_HZ -/
  fsHz : Word32
  /-- RELOAD, shown on the output `tick_reload` (R104) -/
  reload : Word32
  /-- STATUS but for its bit 3 -/
  status : Status
  /-- TICK_PEND (R30) -/
  tickPend : Bool
  /-- the transport trace, oldest event first (R86) -/
  trace : List TransportEvent
  /-- the output `tick_ack`: pulsed in the step just taken (R33, R100; log 7) -/
  tickAck : Bool
  /-- the output `rd_data` in the step just taken, where that step was a READ (R37, R105; log 7) -/
  rdData : Option Word32
  /-- the MODEL's own field: the moments to come, each the requests ready at once (R45, R115; log 2) -/
  inputs : List (List Request)
deriving DecidableEq, Repr

/-- The block has no fault: no condition stops it, redirects it or saves state for a handler (R106). -/
inductive Fault where
deriving DecidableEq, Repr

/-- Why the model gives no next state. -/
inductive Refusal where
  /-- `exec`, for an instruction that has no meaning yet; safe. No arm answers so. -/
  | notModelled (mnemonic : String)
  /-- `step`, in a state whose parameters break R8 or R9, which says the model refuses them; safe (log 12). -/
  | invalidConfiguration
  /-- `execTick` while TICK_PEND = 0, where the step cannot occur (R100); safe. `step` never answers so (log 5). -/
  | tickNotEnabled
  /-- `execSine` and `execTone` in a state with FS_HZ = 0, which R26 excludes; safe (log 10). -/
  | zeroSampleRate
  /-- `execTick` in a state whose IDX_I lies outside the constellation table, which R22 excludes; safe (log 11). -/
  | indexOutsideTable
deriving DecidableEq, Repr

/-- A channel's registers after reset (R19, R35). -/
def ChannelRegs.reset : ChannelRegs where
  idx := 0
  inc := 1
  dc := 0
  raw := 0

/-- STATUS after reset (R35). -/
def Status.reset : Status where
  cmdErr := false
  rangeWarn := false
  overrun := false
  errCause := 0
  warnCause := 0

/-- The reset state for a parameter set (R35, R124), with nothing offered yet (log 3). -/
def State.resetFor (p : Params) : State where
  params := p
  mode := .raw
  chI := ChannelRegs.reset
  chQ := ChannelRegs.reset
  fsHz := BitVec.ofNat 32 p.fsResetHz
  reload := reloadCount p.clkHz p.fsResetHz
  status := Status.reset
  tickPend := false
  trace := []
  tickAck := false
  rdData := none
  inputs := []

/-- The machine right after reset, with the example parameters of R11 (DESIGN CHOICE, unsafe: log 1). -/
def State.reset : State := State.resetFor Config.p0

end Sys2Proof.Machine
end

