-- ==== Sys2Proof/Machine/Agents.lean ====
section
/-! DEFINITION. Which agent steps next (R16, R45, R115). -/

namespace Sys2Proof.Machine

/-- The requests left in a moment, before the later moments; a moment used up is over. -/
def leftOver (rs : List Request) (later : List (List Request)) : List (List Request) :=
  if rs.isEmpty then later else rs :: later

/-- The request taken next, and what remains. In a moment that holds a reset the reset goes first and discards
the others (R115). A moment without requests, or no moment at all, leaves the turn to the dispatcher (R101, log 4). -/
def nextRequest : List (List Request) → Request × List (List Request)
  | [] => (.tick, [])
  | m :: later =>
    if Request.reset ∈ m then (.reset, later)
    else
      match m with
      | [] => (.tick, later)
      | r :: rs => (r, leftOver rs later)

end Sys2Proof.Machine
end

