-- ==== Sys2Proof/Machine/Flags.lean ====
section
/-! DEFINITION. STATUS: its cause codes, what sets and clears its fields, and the word the read port shows
(R27 to R29, R98, R99, R107, R108). -/

namespace Sys2Proof.Machine

/-- ERR_CAUSE codes (R28). -/
def rejectCode : RejectCause → BitVec 4
  | .reservedOpcode => 1
  | .reservedField => 2
  | .reservedSelector => 3
  | .invalidRate => 4

/-- WARN_CAUSE codes (R29). -/
def warnCode : WarnCause → BitVec 4
  | .rawClamped => 1
  | .dcClamped => 2
  | .freqOutOfRange => 3

/-- STATUS after `CmdReject(cause)` (R107). -/
def Status.reject (c : RejectCause) (st : Status) : Status :=
  { st with cmdErr := true, errCause := rejectCode c }

/-- STATUS after `warn(cause)` (R108). -/
def Status.warn (c : WarnCause) (st : Status) : Status :=
  { st with rangeWarn := true, warnCause := warnCode c }

/-- STATUS after CLR_STATUS m (R98). -/
def Status.clear (m : BitVec 3) (st : Status) : Status where
  cmdErr := if m.getLsbD 0 then false else st.cmdErr
  errCause := if m.getLsbD 0 then 0 else st.errCause
  rangeWarn := if m.getLsbD 1 then false else st.rangeWarn
  warnCause := if m.getLsbD 1 then 0 else st.warnCause
  overrun := if m.getLsbD 2 then false else st.overrun

/-- STATUS after a timer event, TICK_PEND being `pending` before it (R99). -/
def Status.timer (pending : Bool) (st : Status) : Status :=
  { st with overrun := st.overrun || pending }

/-- The STATUS word with TICK_PEND in bit 3 (R27): bits 31:12 read 0. -/
def Status.word (tickPend : Bool) (st : Status) : Word32 :=
  (0 : BitVec 20) ++ st.warnCause ++ st.errCause ++ BitVec.ofBool tickPend ++ BitVec.ofBool st.overrun ++
    BitVec.ofBool st.rangeWarn ++ BitVec.ofBool st.cmdErr

end Sys2Proof.Machine
end

