-- ==== Sys2Proof/Machine/Ops.lean ====
section
/-! DEFINITION. The named operations over the registers: channel registers, entering a mode, rejecting and
warning, emitting events, and the register read port. The block has no data memory (R36) and no trap entry
(R116): `State.cmdReject` and `State.warnIf` are all it does on an error (R106). -/

namespace Sys2Proof.Machine

/-- The registers of channel c. -/
def State.chan (s : State) : Channel → ChannelRegs
  | .i => s.chI
  | .q => s.chQ

/-- Write the registers of channel c. -/
def State.setChan (c : Channel) (r : ChannelRegs) (s : State) : State :=
  match c with
  | .i => { s with chI := r }
  | .q => { s with chQ := r }

/-- `R[RAW_c] <- v`. -/
def State.setRaw (c : Channel) (v : Code) (s : State) : State := s.setChan c { s.chan c with raw := v }

/-- `R[DC_c] <- v`. -/
def State.setDc (c : Channel) (v : Code) (s : State) : State := s.setChan c { s.chan c with dc := v }

/-- `R[INC_c] <- v`. -/
def State.setInc (c : Channel) (v : Code) (s : State) : State := s.setChan c { s.chan c with inc := v }

/-- `R[IDX_c] <- v`. -/
def State.setIdx (c : Channel) (v : Code) (s : State) : State := s.setChan c { s.chan c with idx := v }

/-- Enter a mode: `R[MODE] <- m`, both indices 0, whatever the mode was (R91). -/
def State.enterMode (m : Mode) (s : State) : State :=
  (({ s with mode := m } : State).setIdx .i 0).setIdx .q 0

/-- `raise CmdReject(cause)` (R107): STATUS and nothing else. -/
def State.cmdReject (c : RejectCause) (s : State) : State := { s with status := s.status.reject c }

/-- `if b : warn(cause)` (R108). -/
def State.warnIf (b : Bool) (c : WarnCause) (s : State) : State :=
  { s with status := if b then s.status.warn c else s.status }

/-- `Emit(ev)` (R14, R86). -/
def State.emit (ev : TransportEvent) (s : State) : State := { s with trace := s.trace ++ [ev] }

/-- MODE codes (R20). -/
def modeCode : Mode → BitVec 3
  | .raw => 0
  | .dc => 1
  | .sine => 2
  | .bpsk => 3
  | .qpsk => 4
  | .psk8 => 5
  | .qam16 => 6

/-- The table length L of a mode (R21). -/
def tableLength : Mode → Nat
  | .raw => 1
  | .dc => 1
  | .sine => 4096
  | .bpsk => 2
  | .qpsk => 4
  | .psk8 => 8
  | .qam16 => 16

/-- `(idx + inc) mod L` (R67). -/
def advancedIdx (m : Mode) (r : ChannelRegs) : Code :=
  BitVec.ofNat 12 ((r.idx.toNat + r.inc.toNat) % tableLength m)

/-- `advance(c)` (R67). -/
def State.advance (c : Channel) (s : State) : State := s.setIdx c (advancedIdx s.mode (s.chan c))

/-- Step (6) of the tick (R100): TICK_PEND cleared and `tick_ack` pulsed. -/
def State.acknowledge (s : State) : State := { s with tickPend := false, tickAck := true }

/-- The STATUS register as it is read (R27). -/
def State.statusWord (s : State) : Word32 := s.status.word s.tickPend

/-- The register map of R19 and the read of R105; unmapped addresses read 0 (R37). -/
def State.readReg (s : State) (a : RegAddr) : Word32 :=
  match a.toNat with
  | 0x00 => (modeCode s.mode).setWidth 32
  | 0x01 => s.statusWord
  | 0x02 => s.chI.idx.setWidth 32
  | 0x03 => s.chQ.idx.setWidth 32
  | 0x04 => s.chI.inc.setWidth 32
  | 0x05 => s.chQ.inc.setWidth 32
  | 0x06 => s.chI.dc.setWidth 32
  | 0x07 => s.chQ.dc.setWidth 32
  | 0x08 => s.chI.raw.setWidth 32
  | 0x09 => s.chQ.raw.setWidth 32
  | 0x0A => s.fsHz
  | 0x0B => s.reload
  | _ => 0

/-- The output `tick_reload`, which shows RELOAD at all times (R33, R104). -/
def State.tickReload (s : State) : Word32 := s.reload

/-- The start of a step: the pulses of the step before are over, and the requests `rest` remain (log 7). -/
def State.beginStep (rest : List (List Request)) (s : State) : State :=
  { s with tickAck := false, rdData := none, inputs := rest }

end Sys2Proof.Machine
end

