-- ==== Sys2Proof/Machine/Dds.lean ====
section
/-! DEFINITION. The DDS commands of 40_dds.md: SINE and TONE. -/

namespace Sys2Proof.Machine

/-- The increment the current rate gives a frequency (R63, R68): none at the rate 0, which R26 excludes (log 10). -/
def State.toneInc (f : Int) (s : State) : Option Code :=
  if s.fsHz.toNat = 0 then none else some (incr f s.fsHz.toNat)

/-- `if 2*|f| > Fs : warn(3)` (R66, R68). -/
def State.warnFreq (f : Int) (s : State) : State := s.warnIf (freqOutside f s.fsHz.toNat) .freqOutOfRange

/-- SINE (R68): warn, set the channel's increment, enter Sine. -/
def execSine (c : Channel) (f : Word32) (s : State) : Host.Outcome State Fault Refusal :=
  match s.toneInc (s32 f) with
  | some k => .next (((s.warnFreq (s32 f)).setInc c k).enterMode .sine)
  | none => .refused .zeroSampleRate

/-- TONE (R69): warn, set both increments, enter Sine. -/
def execTone (f : Word32) (s : State) : Host.Outcome State Fault Refusal :=
  match s.toneInc (s32 f) with
  | some k => .next ((((s.warnFreq (s32 f)).setInc .i k).setInc .q k).enterMode .sine)
  | none => .refused .zeroSampleRate

end Sys2Proof.Machine
end

