-- ==== Sys2Proof/Machine/ModeCommands.lean ====
section
/-! DEFINITION. The mode commands of 43_mode_commands.md: RAW, DC, MOD, FILTER, CLR_STATUS. Every one completes:
none raises an exception after decode (R92, R94, R95, R97, R98). -/

namespace Sys2Proof.Machine

/-- RAW (R92): clamp, warn where the clamp changed the value, write RAW_c, enter Raw. -/
def execRaw (c : Channel) (v : Word32) (s : State) : Host.Outcome State Fault Refusal :=
  .next (((s.warnIf (decide (clamp (s32 v) ≠ s32 v)) .rawClamped).setRaw c (code12 (clamp (s32 v)))).enterMode .raw)

/-- DC (R94): map millivolts, clamp, warn where the clamp changed the value, write DC_c, enter DC. -/
def execDc (c : Channel) (mv : Word32) (s : State) : Host.Outcome State Fault Refusal :=
  let m := dcmap (s32 mv)
  .next (((s.warnIf (decide (clamp m ≠ m)) .dcClamped).setDc c (code12 (clamp m))).enterMode .dc)

/-- What the four MOD rows share (R95): the mode, both increments 1, both indices 0. -/
def State.enterConstellation (m : Mode) (s : State) : State := ((s.setInc .i 1).setInc .q 1).enterMode m

/-- MOD BPSK (R95). -/
def execModBpsk (s : State) : Host.Outcome State Fault Refusal := .next (s.enterConstellation .bpsk)

/-- MOD QPSK (R95). -/
def execModQpsk (s : State) : Host.Outcome State Fault Refusal := .next (s.enterConstellation .qpsk)

/-- MOD 8PSK (R95). -/
def execMod8psk (s : State) : Host.Outcome State Fault Refusal := .next (s.enterConstellation .psk8)

/-- MOD 16QAM (R95). -/
def execMod16qam (s : State) : Host.Outcome State Fault Refusal := .next (s.enterConstellation .qam16)

/-- FILTER OFF (R97): accepted, no effect. -/
def execFilterOff (s : State) : Host.Outcome State Fault Refusal := .next s

/-- FILTER RRC (R97): accepted, no effect. -/
def execFilterRrc (s : State) : Host.Outcome State Fault Refusal := .next s

/-- CLR_STATUS (R98). -/
def execClrStatus (m : BitVec 3) (s : State) : Host.Outcome State Fault Refusal :=
  .next { s with status := s.status.clear m }

end Sys2Proof.Machine
end

