-- ==== Sys2Proof/Machine/ResetInput.lean ====
section
/-! DEFINITION. The reset input of 70_reset_and_hazards.md R124. -/

namespace Sys2Proof.Machine

/-- RESET (R124): one atomic step that sets the reset state of R35. The parameters are the build's, and what the
world offers after the reset is not the block's to drop (log 6). -/
def execReset (s : State) : Host.Outcome State Fault Refusal :=
  .next { State.resetFor s.params with inputs := s.inputs }

end Sys2Proof.Machine
end

