-- ==== Sys2Proof/Machine/Encoder.lean ====
section
/-! DEFINITION. The I/Q to DAC word encoder (42_encoder.md R81 to R85). -/

namespace Sys2Proof.Machine

/-- HEADER(c) of R82. -/
def header : Channel → DacWord
  | .i => 0x3000
  | .q => 0xB000

/-- `encode(c, v) = HEADER(c) | v` of R83. -/
def dacWord (c : Channel) (v : Code) : DacWord := header c ||| v.setWidth 16

/-- Steps (1) and (4) of the tick (R88, R100): the strobe, then Q's word, then I's. -/
def State.emitBurst (vI vQ : Code) (s : State) : State :=
  ((s.emit .latch).emit (.word (dacWord .q vQ))).emit (.word (dacWord .i vI))

end Sys2Proof.Machine
end

