-- ==== Sys2Proof/Machine/Tables.lean ====
section
/-! DEFINITION. The read-only tables and the table indexer (41_tables.md R71 to R80). The sine tables are computed
exactly, in integers, from the parameters (DEDUCED, log 8). -/

namespace Sys2Proof.Machine

/-- π as a decimal fraction over `piDen`, correct to 20 decimals (PRESUMED: a mathematical constant; log 8). -/
def piNum : Nat := 314159265358979323846

/-- The denominator of `piNum`. -/
def piDen : Nat := 10 ^ 20

/-- `1 - y/(2k(2k+1)) · (1 - y/((2k+2)(2k+3)) · (…))` for `y = a2/b2`, `n` factors deep, as a fraction
(numerator, denominator): the tail of sine's Taylor series in Horner's form. -/
def sineTail (a2 b2 : Nat) : (n k : Nat) → Int × Int
  | 0, _ => (1, 1)
  | n + 1, k =>
    let t := sineTail a2 b2 n (k + 1)
    let d := (b2 * (2 * k * (2 * k + 1)) : Nat) * t.2
    (d - a2 * t.1, d)

/-- sin(2π·i/4096) for i in [0, 1024] as a fraction: the Taylor polynomial of degree 25 at `piNum·i/(2048·piDen)`.
Its error is below 10^-18 (log 8). -/
def sineQuarter (i : Nat) : Int × Int :=
  let a := piNum * i
  let b := 2048 * piDen
  let t := sineTail (a * a) (b * b) 12 1
  (a * t.1, b * t.2)

/-- sin(2π·i/4096) for every i, as a fraction, by the symmetries of the four quarter periods. -/
def sineFrac (i : Nat) : Int × Int :=
  let r := i % 1024
  match i % 4096 / 1024 with
  | 0 => sineQuarter r
  | 1 => sineQuarter (1024 - r)
  | 2 => let t := sineQuarter r; (-t.1, t.2)
  | _ => let t := sineQuarter (1024 - r); (-t.1, t.2)

/-- `round(n/d)` of R13 for d > 0: floor(n/d + 1/2). -/
def roundDiv (n d : Int) : Int := (2 * n + d) / (2 * d)

/-- `round(gain · x + offset)` for the fraction x (R71). -/
def waveEntry (gain offset : Nat) (x : Int × Int) : Int := roundDiv (gain * x.1 + offset * x.2) x.2

/-- The index at which a channel reads the sine: the cosine is the sine a quarter period on (R71, R73). -/
def wavePhase : Channel → Nat → Nat
  | .i, k => k
  | .q, k => k + 1024

/-- The entries of SINE_ROM_I and SINE_ROM_Q (R71), as integers. -/
def sineEntry (p : Params) (c : Channel) (k : Nat) : Int :=
  waveEntry (gainOf p c) (offsetOf p c) (sineFrac (wavePhase c k))

/-- SINE_ROM_c (R71): 4096 codes of 12 bits. -/
def sineRom (p : Params) (c : Channel) (k : Code) : Code := code12 (sineEntry p c k.toNat)

/-- One binary digit after another of the integer square root: `isqrtFrom k n r` adds to r the digits below 2^k. -/
def isqrtFrom : (k n r : Nat) → Nat
  | 0, _, r => r
  | k + 1, n, r => isqrtFrom k n (if (r + 2 ^ k) * (r + 2 ^ k) ≤ n then r + 2 ^ k else r)

/-- `isqrt(n)` (R75): the greatest integer whose square is at most n. -/
def isqrt (n : Nat) : Nat := isqrtFrom (n.log2 / 2 + 1) n 0

/-- D_c of R75: round(G/√2). -/
def diagLevel (gain : Nat) : Nat := (isqrt (2 * gain ^ 2) + 1) / 2

/-- T_c of R75: round(0.33·G), ties up. -/
def innerLevel (gain : Nat) : Nat := (33 * gain + 50) / 100

/-- The signed levels of a constellation table of R76, entry 0 first; modes without one have none. -/
def constLevels (gain : Nat) : Channel → Mode → List Int
  | _, .raw => []
  | _, .dc => []
  | _, .sine => []
  | .i, .bpsk => [gain, -gain]
  | .q, .bpsk => [0, 0]
  | _, .qpsk => [gain, -gain]
  | .i, .psk8 =>
    [gain, diagLevel gain, 0, -diagLevel gain, -gain, -diagLevel gain, 0, diagLevel gain]
  | .q, .psk8 =>
    [0, diagLevel gain, gain, diagLevel gain, 0, -diagLevel gain, -gain, -diagLevel gain]
  | _, .qam16 => [gain, innerLevel gain, -innerLevel gain, -gain]

/-- CONST_c[m][j] (R76): offset plus level, where the table has an entry j. -/
def constEntry (p : Params) (c : Channel) (m : Mode) (j : Nat) : Option Code :=
  ((constLevels (gainOf p c) c m)[j]?).map fun level => code12 (offsetOf p c + level)

/-- The pair (CONST_I[m][a], CONST_Q[m][b]). -/
def constPair (p : Params) (m : Mode) (a b : Nat) : Option (Code × Code) :=
  match constEntry p .i m a, constEntry p .q m b with
  | some vI, some vQ => some (vI, vQ)
  | _, _ => none

/-- `lookup()` of R77: the codes (vI, vQ). In the constellation modes IDX_I alone selects both (R25, R79). There
is no answer only where IDX_I lies outside the table, which R22 excludes (log 11). -/
def lookup (s : State) : Option (Code × Code) :=
  let j := s.chI.idx.toNat
  match s.mode with
  | .raw => some (s.chI.raw, s.chQ.raw)
  | .dc => some (s.chI.dc, s.chQ.dc)
  | .sine => some (sineRom s.params .i s.chI.idx, sineRom s.params .q s.chQ.idx)
  | .bpsk => constPair s.params .bpsk j j
  | .qpsk => constPair s.params .qpsk (j &&& 1) ((j &&& 2) >>> 1)
  | .psk8 => constPair s.params .psk8 j j
  | .qam16 => constPair s.params .qam16 (j &&& 3) ((j &&& 12) >>> 2)

end Sys2Proof.Machine
end

