-- ==== Sys2Proof/Machine/SymbolTick.lean ====
section
/-! DEFINITION. The dispatcher of 44_dispatcher.md: SR, TIMER_EVENT, TICK and READ. -/

namespace Sys2Proof.Machine

/-- SR (R103): FS_HZ and RELOAD; a rate R57 does not admit is rejected with cause 4. -/
def execSr (r : Word32) (s : State) : Host.Outcome State Fault Refusal :=
  .next (if rateLegal s.params.clkHz r then { s with fsHz := r, reload := reloadCount s.params.clkHz r.toNat }
    else s.cmdReject .invalidRate)

/-- TIMER_EVENT (R99): request a tick; a request that finds one pending is merged and sets OVERRUN. -/
def execTimerEvent (s : State) : Host.Outcome State Fault Refusal :=
  .next { s with status := s.status.timer s.tickPend, tickPend := true }

/-- TICK (R100), enabled when TICK_PEND = 1: the burst of the codes looked up before the advance, then both
advances, then the acknowledgement. -/
def execTick (s : State) : Host.Outcome State Fault Refusal :=
  if s.tickPend then
    match lookup s with
    | some v => .next ((((s.emitBurst v.1 v.2).advance .i).advance .q).acknowledge)
    | none => .refused .indexOutsideTable
  else .refused .tickNotEnabled

/-- READ (R105): the read port answers; no register changes. -/
def execRead (a : RegAddr) (s : State) : Host.Outcome State Fault Refusal :=
  .next { s with rdData := some (s.readReg a) }

end Sys2Proof.Machine
end

