-- ==== Sys2Proof/Machine/Dispatch.lean ====
section
/-! DEFINITION. One arm per row of spec/opcode_table.json. -/

namespace Sys2Proof.Machine

def exec (i : Instr) (s : State) : Host.Outcome State Fault Refusal :=
  match i with
  | .raw c v => Sys2Proof.Machine.execRaw c v s
  | .dc c mv => Sys2Proof.Machine.execDc c mv s
  | .sine c f => Sys2Proof.Machine.execSine c f s
  | .tone f => Sys2Proof.Machine.execTone f s
  | .modBpsk => Sys2Proof.Machine.execModBpsk s
  | .modQpsk => Sys2Proof.Machine.execModQpsk s
  | .mod8psk => Sys2Proof.Machine.execMod8psk s
  | .mod16qam => Sys2Proof.Machine.execMod16qam s
  | .sr r => Sys2Proof.Machine.execSr r s
  | .filterOff => Sys2Proof.Machine.execFilterOff s
  | .filterRrc => Sys2Proof.Machine.execFilterRrc s
  | .clrStatus m => Sys2Proof.Machine.execClrStatus m s
  | .timerEvent => Sys2Proof.Machine.execTimerEvent s
  | .tick => Sys2Proof.Machine.execTick s
  | .read a => Sys2Proof.Machine.execRead a s
  | .reset => Sys2Proof.Machine.execReset s

end Sys2Proof.Machine
end

