-- ==== Sys2Proof/Machine/Service.lean ====
section
/-! DEFINITION. How the block serves each request (R44). -/

namespace Sys2Proof.Machine

/-- Accept a command word (R52): run what R57 decodes, or record the rejection (R107). -/
def serveCommand (w : CmdWord) (s : State) : Host.Outcome State Fault Refusal :=
  match decodeCommand s.params w with
  | .ok i => exec i s
  | .error c => .next (s.cmdReject c)

/-- One atomic step on a request. The dispatcher's turn passes while no tick is pending, since a tick is then not
enabled (R100; log 5). -/
def serve (r : Request) (s : State) : Host.Outcome State Fault Refusal :=
  match r with
  | .command w => serveCommand w s
  | .timerEvent => exec .timerEvent s
  | .tick => if s.tickPend then exec .tick s else .next s
  | .read a => exec (.read a) s
  | .reset => exec .reset s

end Sys2Proof.Machine
end

