-- ==== Sys2Proof/Machine/Step.lean ====
section
/-! DEFINITION. One step of the block, and where the next command word is placed. -/

namespace Sys2Proof.Machine

/-- One atomic step (R44): serve the next request. A configuration that breaks R8 or R9 is refused (R9; log 12). -/
def step (s : State) : Host.Outcome State Fault Refusal :=
  if s.params.valid then
    let nr := nextRequest s.inputs
    serve nr.1 (s.beginStep nr.2)
  else .refused .invalidConfiguration

/-- `s` with a command word offered on the command port in a moment of its own, before everything else (log 3). -/
def State.withFetchWord (s : State) (nbits w : Nat) : State :=
  { s with inputs := [Request.command (BitVec.ofNat 64 (w % 2 ^ nbits))] :: s.inputs }

end Sys2Proof.Machine
end

