-- ==== Sys2Proof/Safety.lean ====
section
/-! DEFINITION. The terms claims are made in: the invariant of the block's states, and what the trace says. -/

namespace Sys2Proof.Machine

/-- The modes whose symbols come from a constellation table (R25). -/
def isConstellation : Mode → Bool
  | .raw => false
  | .dc => false
  | .sine => false
  | .bpsk => true
  | .qpsk => true
  | .psk8 => true
  | .qam16 => true

/-- Both indices lie inside the current mode's table (R22). -/
abbrev State.IndicesInTable (s : State) : Prop :=
  s.chI.idx.toNat < tableLength s.mode ∧ s.chQ.idx.toNat < tableLength s.mode

/-- FS_HZ and RELOAD are legal and agree (R19, R26, R103). -/
abbrev State.RatesLegal (s : State) : Prop :=
  1 ≤ s.fsHz.toNat ∧ s.fsHz.toNat ≤ s.params.clkHz ∧ s.reload = reloadCount s.params.clkHz s.fsHz.toNat ∧
    1 ≤ s.reload.toNat ∧ s.reload.toNat ≤ s.params.clkHz

/-- In the constellation modes both channels step by one, together (R25, R95). -/
abbrev State.SymbolsShareCounter (s : State) : Prop :=
  isConstellation s.mode = true → s.chI.inc = 1 ∧ s.chQ.inc = 1 ∧ s.chI.idx = s.chQ.idx

/-- Only the cause codes of R28 and R29 are held, and each sticky bit is set exactly while its cause is not 0
(R27, R98, R107, R108). -/
abbrev State.CausesLegal (s : State) : Prop :=
  s.status.errCause.toNat ≤ 4 ∧ s.status.warnCause.toNat ≤ 3 ∧
    (s.status.cmdErr = true ↔ s.status.errCause ≠ 0) ∧ (s.status.rangeWarn = true ↔ s.status.warnCause ≠ 0)

/-- The channel select, buffer, gain and shutdown bits of a transport word (R81). -/
def wordHeader (w : DacWord) : BitVec 4 := w.extractLsb' 12 4

/-- A trace read as bursts `Latch, Word q, Word i` whose words carry the headers of Q and of I (R81, R88): the
pairs (q, i), oldest first, or nothing where it is no such trace. -/
def bursts : List TransportEvent → Option (List (DacWord × DacWord))
  | [] => some []
  | .latch :: .word q :: .word i :: later =>
    if wordHeader q = 0xB ∧ wordHeader i = 0x3 then (bursts later).map ((q, i) :: ·) else none
  | _ => none

/-- The pair of words the last strobe of a trace committed to the analog output: those of the burst before it (R102).
Nothing where the last strobe commits no word of this block. -/
def committedWords (trace : List TransportEvent) : Option (DacWord × DacWord) :=
  match bursts trace with
  | some bs => bs.dropLast.getLast?
  | none => none

/-- The invariant of the block: legal parameters (R8, R9), indices inside their tables (R22), legal rates (R26), the
shared symbol counter (R25), legal causes (R28, R29), and a trace made of whole bursts (R88). -/
abbrev State.Inv (s : State) : Prop :=
  s.params.valid = true ∧ s.IndicesInTable ∧ s.RatesLegal ∧ s.SymbolsShareCounter ∧ s.CausesLegal ∧
    (bursts s.trace).isSome = true

/-- The mode-setting instructions (R89): RAW, DC, SINE, TONE and the four MOD rows. -/
def setsMode : Instr → Bool
  | .raw _ _ => true
  | .dc _ _ => true
  | .sine _ _ => true
  | .tone _ => true
  | .modBpsk => true
  | .modQpsk => true
  | .mod8psk => true
  | .mod16qam => true
  | .sr _ => false
  | .filterOff => false
  | .filterRrc => false
  | .clrStatus _ => false
  | .timerEvent => false
  | .tick => false
  | .read _ => false
  | .reset => false

/-- No command word still to come is a mode-setting command under the parameters p. -/
def NoModeCommand (p : Params) (inputs : List (List Request)) : Prop :=
  ∀ m ∈ inputs, ∀ w, Request.command w ∈ m → ∀ i, decodeCommand p w = .ok i → setsMode i = false

/-- The trace of `n` ticks with both codes 0: the header-only burst, `n` times (R126). -/
def headerBursts (n : Nat) : List TransportEvent :=
  (List.replicate n [TransportEvent.latch, .word 0xB000, .word 0x3000]).flatten

/-- What holds from reset until a mode-setting command (R126): legal parameters, mode Raw with both raw magnitudes 0
(R125), and a trace of header-only bursts. -/
def State.HeaderOnly (s : State) : Prop :=
  s.params.valid = true ∧ s.mode = .raw ∧ s.chI.raw = 0 ∧ s.chQ.raw = 0 ∧ ∃ n, s.trace = headerBursts n

/-- `n` moments in each of which the timer pulses and the tick that services the pulse follows (R59's TICK). -/
def tickMoments (n : Nat) : List (List Request) := List.replicate n [Request.timerEvent, Request.tick]

/-- How many steps the requests still to come can take at most: one a request, one a moment. -/
def pendingSteps : List (List Request) → Nat
  | [] => 0
  | m :: later => m.length + 1 + pendingSteps later

/-- No reset is still to come. -/
def noReset (inputs : List (List Request)) : Bool := inputs.all fun m => decide (Request.reset ∉ m)

end Sys2Proof.Machine
end

