-- ==== Sys2Proof/Certificates/Slice0/Obligations.lean ====
section
/-! DEFINITION. The statements about the model. Each docstring names the rule of spec/ it formalises, or what it is
derived from. -/

open Sys2Proof Sys2Proof.Machine

/-! ### Encoding -/

/-- R51, R53 to R56: the word of an instruction decodes to that instruction, for every operand. -/
def Obligations.DecodeEncodeRoundTrip : Prop :=
  ∀ (i : Instr) (w : CmdWord), encode i = some w → decode w = .ok i

/-- R51, R58: a word the decoder accepts is the encoding of what it reads, so no bit of a word is dropped. -/
def Obligations.AcceptedWordIsItsEncoding : Prop :=
  ∀ (w : CmdWord) (i : Instr), decode w = .ok i → encode i = some w

/-- R57, R58, R110: the cause a word is rejected with, by the word's fields as numbers. The four conditions exclude
each other: where several of R58's faults meet, the lowest cause is recorded. -/
def Obligations.RejectCauseIsLowest : Prop :=
  ∀ (p : Params) (w : CmdWord) (op ch rsv arg : Nat),
    w.toNat = op * 2 ^ 60 + ch * 2 ^ 59 + rsv * 2 ^ 32 + arg → ch < 2 → rsv < 2 ^ 27 → arg < 2 ^ 32 →
    (decodeCommand p w = .error .reservedOpcode ↔ op = 0 ∨ 9 ≤ op) ∧
    (decodeCommand p w = .error .reservedField ↔ 1 ≤ op ∧ op ≤ 8 ∧
      (rsv ≠ 0 ∨ (4 ≤ op ∧ ch = 1) ∨ (op = 5 ∧ 8 ≤ arg) ∨ (op = 7 ∧ 2 ≤ arg) ∨ (op = 8 ∧ 8 ≤ arg))) ∧
    (decodeCommand p w = .error .reservedSelector ↔ op = 5 ∧ ch = 0 ∧ rsv = 0 ∧ 4 ≤ arg ∧ arg ≤ 7) ∧
    (decodeCommand p w = .error .invalidRate ↔ op = 6 ∧ ch = 0 ∧ rsv = 0 ∧ (arg = 0 ∨ p.clkHz < arg))

/-- R62: the sample command words decode to the instructions of their assembly, and are their encodings. -/
def Obligations.SampleWordsDecode : Prop :=
  ∀ pair ∈ ([
      (.raw .i 100, 0x1000000000000064), (.raw .q 5000, 0x1800000000001388),
      (.dc .i 250, 0x20000000000000FA), (.dc .q (-250), 0x28000000FFFFFF06),
      (.sine .i 1000, 0x30000000000003E8), (.sine .q (-1000), 0x38000000FFFFFC18),
      (.tone 12500, 0x40000000000030D4), (.modBpsk, 0x5000000000000000), (.modQpsk, 0x5000000000000001),
      (.mod8psk, 0x5000000000000002), (.mod16qam, 0x5000000000000003), (.sr 100000, 0x60000000000186A0),
      (.filterRrc, 0x7000000000000001), (.clrStatus 7, 0x8000000000000007)] : List (Instr × CmdWord)),
    decode pair.2 = .ok pair.1 ∧ encode pair.1 = some pair.2

/-- R60, row by row: the word transcribed from a text command decodes to its instruction, with the operand's exact value;
text whose operand does not fit is not given to the block (for DC the range of the millivolts is the model's deduction,
log 13); `reboot` asserts the reset input; `help` and unknown text give nothing. -/
def Obligations.TextCommandsTranscribeExactly : Prop :=
  (∀ (c : Channel) (v : Int), -2 ^ 31 ≤ v → v < 2 ^ 31 → ∀ ampl, ∃ (x : Word32) (wr ws wt : CmdWord), x.toInt = v ∧
    transcribe (.raw c v) = .word wr ∧ decode wr = .ok (.raw c x) ∧
    transcribe (.sine c v ampl) = .word ws ∧ decode ws = .ok (.sine c x) ∧
    transcribe (.tone v ampl) = .word wt ∧ decode wt = .ok (.tone x)) ∧
  (∀ (c : Channel) (v : Int), v < -2 ^ 31 ∨ 2 ^ 31 ≤ v → ∀ ampl, transcribe (.raw c v) = .nothing ∧
    transcribe (.sine c v ampl) = .nothing ∧ transcribe (.tone v ampl) = .nothing) ∧
  (∀ (c : Channel) (d : Int) (k : Nat),
    (k ≤ 3 → -2 ^ 31 ≤ d * 10 ^ (3 - k) → d * 10 ^ (3 - k) < 2 ^ 31 → ∃ (x : Word32) (w : CmdWord),
      (x.toInt : ℚ) = d / 10 ^ k * 1000 ∧ transcribe (.dc c d k) = .word w ∧ decode w = .ok (.dc c x)) ∧
    (3 < k ∨ d * 10 ^ (3 - k) < -2 ^ 31 ∨ 2 ^ 31 ≤ d * 10 ^ (3 - k) → transcribe (.dc c d k) = .nothing)) ∧
  (∀ r : Int, (0 ≤ r ∧ r < 2 ^ 32 → ∃ (x : Word32) (w : CmdWord), (x.toNat : Int) = r ∧
      transcribe (.sr r) = .word w ∧ decode w = .ok (.sr x)) ∧
    (r < 0 ∨ 2 ^ 32 ≤ r → transcribe (.sr r) = .nothing)) ∧
  (∀ row ∈ ([
      (.modBpsk, 0x5000000000000000, .modBpsk), (.modQpsk, 0x5000000000000001, .modQpsk),
      (.mod8psk, 0x5000000000000002, .mod8psk), (.mod16qam, 0x5000000000000003, .mod16qam),
      (.filterOff, 0x7000000000000000, .filterOff), (.filterRrc, 0x7000000000000001, .filterRrc)] :
        List (TextCommand × CmdWord × Instr)),
    transcribe row.1 = .word row.2.1 ∧ decode row.2.1 = .ok row.2.2) ∧
  transcribe .reboot = .resetInput ∧ transcribe .help = .nothing ∧ ∀ text, transcribe (.other text) = .nothing

/-! ### Steps and their order -/

/-- A step runs the decoded instruction: where the next request of a moment without a reset is a command word that
decodes to i, the step is `exec i` on the state whose output pulses are over and whose request is taken
(R44, R52, R57; the moments are the model's, log 2, log 7). -/
def Obligations.StepRunsDecodedCommand : Prop :=
  ∀ (s : State) (w : CmdWord) (i : Instr) (rs : List Request) (later : List (List Request)),
    s.params.valid = true → s.inputs = (.command w :: rs) :: later → Request.reset ∉ rs →
    decodeCommand s.params w = .ok i →
    step s = exec i { s with tickAck := false, rdData := none, inputs := if rs = [] then later else rs :: later }

/-- The step on each request (R44), on the same state as for an accepted command: a command word is served (see
`RejectedWordChangesOnlyStatus` for one that is rejected), the others are `exec` of their instruction. A turn of the
dispatcher passes while no tick is pending (R100, log 5), and comes by itself when nothing is offered (R101, log 4). -/
def Obligations.StepServesEachRequest : Prop :=
  ∀ (s : State) (rs : List Request) (later : List (List Request)), s.params.valid = true → Request.reset ∉ rs →
    let s' : State := { s with tickAck := false, rdData := none, inputs := if rs = [] then later else rs :: later }
    let idle : State := { s with tickAck := false, rdData := none, inputs := later }
    (∀ w, s.inputs = (.command w :: rs) :: later → step s = serve (.command w) s') ∧
    (s.inputs = (.timerEvent :: rs) :: later → step s = exec .timerEvent s') ∧
    (∀ a, s.inputs = (.read a :: rs) :: later → step s = exec (.read a) s') ∧
    (s.inputs = (.tick :: rs) :: later → step s = if s.tickPend then exec .tick s' else .next s') ∧
    (s.inputs = [] :: later → step s = if s.tickPend then exec .tick idle else .next idle) ∧
    (s.inputs = [] → later = [] → step s = if s.tickPend then exec .tick idle else .next idle)

/-- R115: a reset ready with others goes first and discards them, wherever it stands among them. That the later moments
stay is the model's own choice, not R115's (DESIGN CHOICE, log 6). -/
def Obligations.ResetGoesFirst : Prop :=
  ∀ (s : State) (m : List Request) (later : List (List Request)),
    s.params.valid = true → s.inputs = m :: later → Request.reset ∈ m →
    step s = .next { State.resetFor s.params with inputs := later }

/-- R45, R115: both orders of two steps that are ready at once are admitted, a reset apart. That the order stands in
the list of moments is the model's choice (log 2). -/
def Obligations.BothOrdersAdmitted : Prop :=
  ∀ (s : State) (a b : Request), s.params.valid = true → a ≠ .reset → b ≠ .reset →
    step { s with inputs := [[a, b]] } = serve a { s with tickAck := false, rdData := none, inputs := [[b]] } ∧
    step { s with inputs := [[b, a]] } = serve b { s with tickAck := false, rdData := none, inputs := [[a]] }

/-- R9: a configuration that breaks the inequalities is refused by the model. -/
def Obligations.IllegalGainOrOffsetRefused : Prop :=
  ∀ s : State,
    (s.params.offsetI < s.params.gainI ∨ 4095 < s.params.offsetI + s.params.gainI ∨
      s.params.offsetQ < s.params.gainQ ∨ 4095 < s.params.offsetQ + s.params.gainQ) →
    step s = .refused .invalidConfiguration

/-- R107: a rejected command word sets CMD_ERR and ERR_CAUSE and changes nothing else. -/
def Obligations.RejectedWordChangesOnlyStatus : Prop :=
  ∀ (s : State) (w : CmdWord) (c : RejectCause), decodeCommand s.params w = .error c →
    serve (.command w) s = .next { s with
      status := { s.status with
        cmdErr := true
        errCause := match c with
          | .reservedOpcode => 1
          | .reservedField => 2
          | .reservedSelector => 3
          | .invalidRate => 4 } }

/-- R106: no condition stops the block. In every state that keeps the invariant, whatever is offered, there is a next
state. -/
def Obligations.StepNeverStops : Prop :=
  ∀ s : State, s.Inv → ∃ t, step s = .next t

/-- R9, R22, R25, R26, R28, R29, R88: every step keeps the invariant. -/
def Obligations.StepKeepsInvariant : Prop :=
  ∀ s t : State, s.Inv → step s = .next t → t.Inv

/-- The reset state keeps the invariant, for every legal parameter set and whatever is offered. -/
def Obligations.ResetStateMeetsInvariant : Prop :=
  ∀ (p : Params) (inputs : List (List Request)), p.valid = true → State.Inv { State.resetFor p with inputs := inputs }

/-! ### Reset -/

/-- R35 (the register column of R19): every register after reset, for every legal parameter set, and the first tick
then sends 0xB000 and 0x3000. The values of FS_HZ and RELOAD are those of the parameters. -/
def Obligations.ResetStateValues : Prop :=
  ∀ p : Params, p.valid = true →
    let r := State.resetFor p
    r.mode = .raw ∧ r.chI = ⟨0, 1, 0, 0⟩ ∧ r.chQ = ⟨0, 1, 0, 0⟩ ∧ r.statusWord = 0 ∧ r.tickPend = false ∧
    r.trace = [] ∧ r.fsHz.toNat = p.fsResetHz ∧ r.reload.toNat = p.clkHz / p.fsResetHz ∧ r.params = p ∧
    ∃ t, exec .tick { r with tickPend := true } = .next t ∧ t.trace = [.latch, .word 0xB000, .word 0x3000]

/-- R124, as the model's one atomic step: every state goes to the reset state of its parameters; the requests still
offered stay, which is the model's choice (DESIGN CHOICE, log 6). -/
def Obligations.ResetInstructionResult : Prop :=
  ∀ s : State, exec .reset s = .next { State.resetFor s.params with inputs := s.inputs }

/-- R126, as a step lemma: in a state that has sent only header bursts (`State.HeaderOnly`), a step that is no accepted
mode-setting command leads to such a state, and where it services a tick it sends `Latch`, 0xB000, 0x3000. Whatever
comes after that step, a mode-setting command with it, is left open; `ResetStateIsHeaderOnly` is where it starts. -/
def Obligations.HeaderOnlyUntilModeCommand : Prop :=
  ∀ s t : State, s.HeaderOnly →
    (∀ w i, (nextRequest s.inputs).1 = .command w → decodeCommand s.params w = .ok i → setsMode i = false) →
    step s = .next t →
    t.HeaderOnly ∧ (t.tickAck = true → t.trace = s.trace ++ [.latch, .word 0xB000, .word 0x3000])

/-- R126, R125: the reset state has sent only header bursts, none yet, for every legal parameter set and whatever is
offered. -/
def Obligations.ResetStateIsHeaderOnly : Prop :=
  ∀ (p : Params) (inputs : List (List Request)), p.valid = true →
    State.HeaderOnly { State.resetFor p with inputs := inputs }

/-- R126 over the runs from reset whose offered command words hold no accepted mode-setting command at all: the trace is
the header burst, repeated. `HeaderOnlyUntilModeCommand` covers the runs that meet one later. -/
def Obligations.HeaderOnlyWithoutModeCommand : Prop :=
  ∀ (p : Params) (inputs : List (List Request)) (k : Nat) (t : State), p.valid = true → NoModeCommand p inputs →
    core.run k { State.resetFor p with inputs := inputs } = .next t →
    ∃ n, t.trace = headerBursts n

/-! ### Mode commands -/

/-- R92: RAW, its encoding and its result; the whole next state, so every other register, the trace and the outputs
are as before. -/
def Obligations.RawCommandResult : Prop :=
  ∀ (c : Channel) (v : Word32) (s : State),
    decode (1#4 ++ (if c = .q then 1#1 else 0#1) ++ 0#27 ++ v) = .ok (.raw c v) ∧
    exec (.raw c v) s = .next { s with
      mode := .raw
      chI := { s.chI with
        idx := 0, raw := if c = .i then BitVec.ofInt 12 (min 4095 (max 0 v.toInt)) else s.chI.raw }
      chQ := { s.chQ with
        idx := 0, raw := if c = .q then BitVec.ofInt 12 (min 4095 (max 0 v.toInt)) else s.chQ.raw }
      status := if 0 ≤ v.toInt ∧ v.toInt ≤ 4095 then s.status
        else { s.status with rangeWarn := true, warnCause := 1 } }

/-- R93: dcmap is round((1/2 - mv/1000) · 4095), ties up, and lies in [0, 4095] exactly for mv in [-500, 500]. -/
def Obligations.DcMapIsRoundedLevel : Prop :=
  ∀ mv : Int,
    dcmap mv = ⌊((1 : ℚ) / 2 - mv / 1000) * 4095 + 1 / 2⌋ ∧
    (0 ≤ dcmap mv ∧ dcmap mv ≤ 4095 ↔ -500 ≤ mv ∧ mv ≤ 500)

/-- R94: DC, its encoding and its result (the whole next state): the rounded level, clamped, and a warning exactly
outside [-500, 500] millivolts. -/
def Obligations.DcCommandResult : Prop :=
  ∀ (c : Channel) (mv : Word32) (s : State),
    let code : Code := BitVec.ofInt 12 (min 4095 (max 0 ⌊((1 : ℚ) / 2 - mv.toInt / 1000) * 4095 + 1 / 2⌋))
    decode (2#4 ++ (if c = .q then 1#1 else 0#1) ++ 0#27 ++ mv) = .ok (.dc c mv) ∧
    exec (.dc c mv) s = .next { s with
      mode := .dc
      chI := { s.chI with idx := 0, dc := if c = .i then code else s.chI.dc }
      chQ := { s.chQ with idx := 0, dc := if c = .q then code else s.chQ.dc }
      status := if -500 ≤ mv.toInt ∧ mv.toInt ≤ 500 then s.status
        else { s.status with rangeWarn := true, warnCause := 2 } }

/-- R95: MOD, its four encodings and results (the whole next state). -/
def Obligations.ModCommandResult : Prop :=
  ∀ s : State,
    let enter (m : Mode) : State :=
      { s with mode := m, chI := { s.chI with idx := 0, inc := 1 }, chQ := { s.chQ with idx := 0, inc := 1 } }
    (decode 0x5000000000000000 = .ok .modBpsk ∧ exec .modBpsk s = .next (enter .bpsk)) ∧
    (decode 0x5000000000000001 = .ok .modQpsk ∧ exec .modQpsk s = .next (enter .qpsk)) ∧
    (decode 0x5000000000000002 = .ok .mod8psk ∧ exec .mod8psk s = .next (enter .psk8)) ∧
    (decode 0x5000000000000003 = .ok .mod16qam ∧ exec .mod16qam s = .next (enter .qam16))

/-- R97: FILTER, both selectors, is accepted and leaves every register, flag and the trace as they were. -/
def Obligations.FilterHasNoEffect : Prop :=
  ∀ s : State,
    decode 0x7000000000000000 = .ok .filterOff ∧ exec .filterOff s = .next s ∧
    decode 0x7000000000000001 = .ok .filterRrc ∧ exec .filterRrc s = .next s

/-- R98: CLR_STATUS, its encoding and its result (the whole next state), the fields cleared by the mask's bits as
numbers; TICK_PEND is not affected. -/
def Obligations.ClearStatusResult : Prop :=
  ∀ (m : BitVec 3) (s : State),
    decode (8#4 ++ 0#57 ++ m) = .ok (.clrStatus m) ∧
    exec (.clrStatus m) s = .next { s with
      status := {
        cmdErr := if m.toNat % 2 = 1 then false else s.status.cmdErr
        errCause := if m.toNat % 2 = 1 then 0 else s.status.errCause
        rangeWarn := if m.toNat / 2 % 2 = 1 then false else s.status.rangeWarn
        warnCause := if m.toNat / 2 % 2 = 1 then 0 else s.status.warnCause
        overrun := if m.toNat / 4 = 1 then false else s.status.overrun } }

/-- R91: every mode-setting command that gives a next state leaves both indices 0, whatever the mode was. -/
def Obligations.ModeCommandZeroesIndices : Prop :=
  ∀ (i : Instr) (s t : State), setsMode i = true → exec i s = .next t → t.chI.idx = 0 ∧ t.chQ.idx = 0

/-- R89, R90: the mode after an instruction depends on the instruction alone where it sets the mode, and is the old mode
where it does not, the reset apart. -/
def Obligations.ModeDependsOnlyOnCommand : Prop :=
  (∀ (i : Instr) (s s' t t' : State), setsMode i = true → exec i s = .next t → exec i s' = .next t' →
    t.mode = t'.mode) ∧
  (∀ (i : Instr) (s t : State), setsMode i = false → i ≠ .reset → exec i s = .next t → t.mode = s.mode)

/-! ### DDS -/

/-- R63: the converter's value, by the floor of the exact quotient. -/
def Obligations.IncrementIsTruncatedPhase : Prop :=
  ∀ (f : Int) (fs : Nat), 1 ≤ fs →
    ((incr f fs).toNat : Int) = ⌊(f * 2 ^ 32 : ℚ) / fs⌋ % 2 ^ 32 / 2 ^ 20

/-- R65: the increments of the frequencies in [-Fs/2, Fs/2], and the asymmetry of a frequency and its negative. -/
def Obligations.IncrementInBand : Prop :=
  (∀ (f : Int) (fs : Nat), 1 ≤ fs → 0 ≤ f → 2 * f ≤ fs → (incr f fs).toNat ≤ 2048) ∧
  (∀ (f : Int) (fs : Nat), 1 ≤ fs → f < 0 → -(fs : Int) ≤ 2 * f → 2048 ≤ (incr f fs).toNat) ∧
  (∀ (h : Int) (fs : Nat), 1 ≤ fs → 2 * h = fs → (incr h fs).toNat = 2048 ∧ (incr (-h) fs).toNat = 2048) ∧
  ((incr 1000 100000).toNat = 40 ∧ (incr (-1000) 100000).toNat = 4055)

/-- R66 (derived): a frequency and one a whole number of sample rates away give the same increment. -/
def Obligations.IncrementAliases : Prop :=
  ∀ (f n : Int) (fs : Nat), 1 ≤ fs → incr (f + n * fs) fs = incr f fs

/-- R68: SINE, its encoding and its result (the whole next state), wherever FS_HZ is at least 1 (R26): the other
channel's increment is kept, and a warning is recorded exactly where 2·|f| > Fs. -/
def Obligations.SineCommandResult : Prop :=
  ∀ (c : Channel) (f : Word32) (s : State), 1 ≤ s.fsHz.toNat →
    let k : Code := BitVec.ofInt 12 (⌊(f.toInt * 2 ^ 32 : ℚ) / s.fsHz.toNat⌋ % 2 ^ 32 / 2 ^ 20)
    decode (3#4 ++ (if c = .q then 1#1 else 0#1) ++ 0#27 ++ f) = .ok (.sine c f) ∧
    exec (.sine c f) s = .next { s with
      mode := .sine
      chI := { s.chI with idx := 0, inc := if c = .i then k else s.chI.inc }
      chQ := { s.chQ with idx := 0, inc := if c = .q then k else s.chQ.inc }
      status := if 2 * |f.toInt| ≤ s.fsHz.toNat then s.status
        else { s.status with rangeWarn := true, warnCause := 3 } }

/-- R69: TONE, its encoding and its result (the whole next state), wherever FS_HZ is at least 1 (R26). -/
def Obligations.ToneCommandResult : Prop :=
  ∀ (f : Word32) (s : State), 1 ≤ s.fsHz.toNat →
    let k : Code := BitVec.ofInt 12 (⌊(f.toInt * 2 ^ 32 : ℚ) / s.fsHz.toNat⌋ % 2 ^ 32 / 2 ^ 20)
    decode (4#4 ++ 0#1 ++ 0#27 ++ f) = .ok (.tone f) ∧
    exec (.tone f) s = .next { s with
      mode := .sine
      chI := { s.chI with idx := 0, inc := k }
      chQ := { s.chQ with idx := 0, inc := k }
      status := if 2 * |f.toInt| ≤ s.fsHz.toNat then s.status
        else { s.status with rangeWarn := true, warnCause := 3 } }

/-- R67 (its induction): after N ticks, each requested and serviced with no command between (moments of the model,
log 2), IDX_c is (IDX_c0 + N · INC_c) mod L, for both channels. -/
def Obligations.IndexAfterManyTicks : Prop :=
  ∀ (s : State) (n : Nat), s.params.valid = true → s.IndicesInTable →
    s.inputs = tickMoments n → s.tickPend = false →
    ∃ t, core.run (2 * n) s = .next t ∧
      t.chI.idx.toNat = (s.chI.idx.toNat + n * s.chI.inc.toNat) % tableLength s.mode ∧
      t.chQ.idx.toNat = (s.chQ.idx.toNat + n * s.chQ.inc.toNat) % tableLength s.mode

/-! ### Tables and encoder -/

/-- R71, for every legal parameter set: the entries of SINE_ROM_I and SINE_ROM_Q lie within 1/2 of the exact sine and
cosine values, so that each is the rounded one. (The model computes the entries, log 8.) -/
def Obligations.SineRomIsRoundedWave : Prop :=
  ∀ (p : Params) (k : Code), p.valid = true →
    |(p.gainI : ℝ) * Real.sin (2 * Real.pi * k.toNat / 4096) + p.offsetI - (sineRom p .i k).toNat| < 1 / 2 ∧
    |(p.gainQ : ℝ) * Real.cos (2 * Real.pi * k.toNat / 4096) + p.offsetQ - (sineRom p .q k).toNat| < 1 / 2

/-- R73: the quarter points are exact, and with equal gains and offsets SINE_ROM_Q is SINE_ROM_I a quarter on. -/
def Obligations.SineRomQuarterPoints : Prop :=
  ∀ p : Params, p.valid = true →
    ((sineRom p .i 0).toNat = p.offsetI ∧ (sineRom p .q 0).toNat = p.offsetQ + p.gainQ) ∧
    ((sineRom p .i 1024).toNat = p.offsetI + p.gainI ∧ (sineRom p .q 1024).toNat = p.offsetQ) ∧
    ((sineRom p .i 2048).toNat = p.offsetI ∧ (sineRom p .q 2048).toNat = p.offsetQ - p.gainQ) ∧
    ((sineRom p .i 3072).toNat = p.offsetI - p.gainI ∧ (sineRom p .q 3072).toNat = p.offsetQ) ∧
    (p.gainI = p.gainQ → p.offsetI = p.offsetQ → ∀ k : Code, sineRom p .q k = sineRom p .i (k + 1024))

/-- R75: isqrt is the greatest integer whose square is at most n; D_c is computed from it and is the integer nearest to
G/√2, with no tie; T_c is round(0.33·G), ties up. -/
def Obligations.DerivedLevelsAreRounded : Prop :=
  (∀ n : Nat, isqrt n * isqrt n ≤ n ∧ n < (isqrt n + 1) * (isqrt n + 1)) ∧
  ∀ g : Nat,
    diagLevel g = (isqrt (2 * g ^ 2) + 1) / 2 ∧ |(diagLevel g : ℝ) - g / Real.sqrt 2| < 1 / 2 ∧
    innerLevel g = (33 * g + 50) / 100 ∧ (innerLevel g : Int) = ⌊(33 : ℚ) / 100 * g + 1 / 2⌋

/-- R76 and R80, for every legal parameter set: the constellation codes entry by entry, as numbers, so that none
wraps. -/
def Obligations.ConstellationCodes : Prop :=
  ∀ p : Params, p.valid = true →
    let OI : Int := p.offsetI
    let GI : Int := p.gainI
    let DI : Int := diagLevel p.gainI
    let TI : Int := innerLevel p.gainI
    let OQ : Int := p.offsetQ
    let GQ : Int := p.gainQ
    let DQ : Int := diagLevel p.gainQ
    let TQ : Int := innerLevel p.gainQ
    let codes (c : Channel) (m : Mode) : List (Option Int) :=
      (List.range (constLevels (gainOf p c) c m).length).map fun j =>
        (constEntry p c m j).map fun v => (v.toNat : Int)
    codes .i .bpsk = [some (OI + GI), some (OI - GI)] ∧
    codes .q .bpsk = [some OQ, some OQ] ∧
    codes .i .qpsk = [some (OI + GI), some (OI - GI)] ∧
    codes .q .qpsk = [some (OQ + GQ), some (OQ - GQ)] ∧
    codes .i .psk8 = [some (OI + GI), some (OI + DI), some OI, some (OI - DI),
      some (OI - GI), some (OI - DI), some OI, some (OI + DI)] ∧
    codes .q .psk8 = [some OQ, some (OQ + DQ), some (OQ + GQ), some (OQ + DQ),
      some OQ, some (OQ - DQ), some (OQ - GQ), some (OQ - DQ)] ∧
    codes .i .qam16 = [some (OI + GI), some (OI + TI), some (OI - TI), some (OI - GI)] ∧
    codes .q .qam16 = [some (OQ + GQ), some (OQ + TQ), some (OQ - TQ), some (OQ - GQ)]

/-- R77: in every state whose IDX_I lies inside the mode's table (R22) the lookup answers, with the entries R77 names;
in the constellation modes by IDX_I alone, whatever IDX_Q holds (R25, R79). -/
def Obligations.LookupByMode : Prop :=
  ∀ s : State, s.chI.idx.toNat < tableLength s.mode →
    let j := s.chI.idx.toNat
    ∃ vI vQ : Code, lookup s = some (vI, vQ) ∧
      match s.mode with
      | .raw => vI = s.chI.raw ∧ vQ = s.chQ.raw
      | .dc => vI = s.chI.dc ∧ vQ = s.chQ.dc
      | .sine => vI = sineRom s.params .i s.chI.idx ∧ vQ = sineRom s.params .q s.chQ.idx
      | .bpsk => constEntry s.params .i .bpsk j = some vI ∧ constEntry s.params .q .bpsk j = some vQ
      | .qpsk => constEntry s.params .i .qpsk (j % 2) = some vI ∧ constEntry s.params .q .qpsk (j / 2) = some vQ
      | .psk8 => constEntry s.params .i .psk8 j = some vI ∧ constEntry s.params .q .psk8 j = some vQ
      | .qam16 => constEntry s.params .i .qam16 (j % 4) = some vI ∧ constEntry s.params .q .qam16 (j / 4) = some vQ

/-- R82, R83: the transport word is the channel's header plus the code, and its two parts can be read back. -/
def Obligations.DacWordIsHeaderPlusCode : Prop :=
  ∀ v : Code,
    (dacWord .i v).toNat = 0x3000 + v.toNat ∧ (dacWord .q v).toNat = 0xB000 + v.toNat ∧
    (∀ c, (dacWord c v).extractLsb' 0 12 = v ∧ (dacWord c v).extractLsb' 12 4 = (if c = .q then 0xB else 0x3))

/-! ### Dispatcher, rate and read port -/

/-- R103, R70: SR, its encoding and its result (the whole next state): a legal rate sets FS_HZ and RELOAD and keeps
mode, indices and increments; any other is rejected with cause 4. -/
def Obligations.SetRateResult : Prop :=
  ∀ (r : Word32) (s : State),
    decode (6#4 ++ 0#1 ++ 0#27 ++ r) = .ok (.sr r) ∧
    (1 ≤ r.toNat → r.toNat ≤ s.params.clkHz →
      exec (.sr r) s = .next { s with fsHz := r, reload := BitVec.ofNat 32 (s.params.clkHz / r.toNat) }) ∧
    (r.toNat = 0 ∨ s.params.clkHz < r.toNat →
      exec (.sr r) s = .next { s with status := { s.status with cmdErr := true, errCause := 4 } })

/-- R103, R26: under legal parameters the RELOAD that a legal rate sets is the quotient itself, and at least 1. -/
def Obligations.ReloadIsQuotient : Prop :=
  ∀ (p : Params) (r : Word32), p.valid = true → 1 ≤ r.toNat → r.toNat ≤ p.clkHz →
    (reloadCount p.clkHz r.toNat).toNat = p.clkHz / r.toNat ∧ 1 ≤ (reloadCount p.clkHz r.toNat).toNat

/-- R99: a timer event sets TICK_PEND, and OVERRUN where it finds TICK_PEND set (the whole next state). -/
def Obligations.TimerEventResult : Prop :=
  ∀ s : State,
    (s.tickPend = false → exec .timerEvent s = .next { s with tickPend := true }) ∧
    (s.tickPend = true → exec .timerEvent s = .next { s with status := { s.status with overrun := true } })

/-- R88, R100: a tick that is enabled, with IDX_I inside its table (R22), sends `Latch`, Q's word, I's word, for the
codes looked up before the advance, advances both indices and acknowledges (the whole next state). -/
def Obligations.TickResult : Prop :=
  ∀ s : State, s.tickPend = true → s.chI.idx.toNat < tableLength s.mode →
    ∃ vI vQ : Code, lookup s = some (vI, vQ) ∧
      exec .tick s = .next { s with
        trace := s.trace ++ [.latch, .word (0xB000 + vQ.setWidth 16), .word (0x3000 + vI.setWidth 16)]
        chI := { s.chI with
          idx := BitVec.ofNat 12 ((s.chI.idx.toNat + s.chI.inc.toNat) % tableLength s.mode) }
        chQ := { s.chQ with
          idx := BitVec.ofNat 12 ((s.chQ.idx.toNat + s.chQ.inc.toNat) % tableLength s.mode) }
        tickPend := false
        tickAck := true }

/-- R100: a tick is enabled only while TICK_PEND = 1; otherwise the step cannot occur. -/
def Obligations.TickNeedsPendingRequest : Prop :=
  ∀ s t : State, exec .tick s = .next t → s.tickPend = true

/-- R113: a request that arrives in a tick's service counts as arriving just after it: TICK_PEND = 1, and STATUS, OVERRUN
with it, as before the tick. -/
def Obligations.RequestDuringTickIsKept : Prop :=
  ∀ s t : State, exec .tick s = .next t →
    ∃ u, exec .timerEvent t = .next u ∧ u.tickPend = true ∧ u.status = s.status

/-- R101: a pending tick is serviced, in every run whatever is offered but a reset. The bound, as many steps as the
requests and moments to come take and one more, is the model's: it rests on the dispatcher having the turn when nothing
is offered (DEDUCED, log 4) and on the finite list of moments (DESIGN CHOICE, log 2). -/
def Obligations.PendingTickIsServiced : Prop :=
  ∀ s : State, s.Inv → s.tickPend = true → noReset s.inputs = true →
    ∃ k t, k ≤ pendingSteps s.inputs + 1 ∧ core.run k s = .next t ∧ t.tickAck = true ∧ t.tickPend = false

/-- R102: the strobe of a tick commits the two words of the burst before it; the first strobe of a trace commits
none. (`committedWords` is a view the model derives from the trace, log 16.) -/
def Obligations.StrobeCommitsBurstBefore : Prop :=
  ∀ (s t : State) (bs : List (DacWord × DacWord)), bursts s.trace = some bs → exec .tick s = .next t →
    committedWords t.trace = bs.getLast?

/-- R27 to R29: the fields of STATUS in the word that address 0x01 reads. -/
def Obligations.StatusWordLayout : Prop :=
  ∀ s : State,
    s.statusWord.toNat =
      s.status.cmdErr.toNat + 2 * s.status.rangeWarn.toNat + 4 * s.status.overrun.toNat + 8 * s.tickPend.toNat +
        16 * s.status.errCause.toNat + 256 * s.status.warnCause.toNat

/-- R19, R37, R105: what each address reads, in every state; the read is the whole effect, and unmapped addresses read
0. (`rdData` as a field of the state is the model's choice, log 7.) -/
def Obligations.ReadResult : Prop :=
  ∀ (a : RegAddr) (s : State),
    let mode : Nat := match s.mode with
      | .raw => 0
      | .dc => 1
      | .sine => 2
      | .bpsk => 3
      | .qpsk => 4
      | .psk8 => 5
      | .qam16 => 6
    let regs : List Nat := [mode, s.statusWord.toNat, s.chI.idx.toNat, s.chQ.idx.toNat, s.chI.inc.toNat, s.chQ.inc.toNat,
      s.chI.dc.toNat, s.chQ.dc.toNat, s.chI.raw.toNat, s.chQ.raw.toNat, s.fsHz.toNat, s.reload.toNat]
    exec (.read a) s = .next { s with rdData := some (BitVec.ofNat 32 (regs.getD a.toNat 0)) }

/-- R43, R46: a read offered just after an accepted command word answers from the state the command left, which it does not
change; a second read of the address answers the same word. (Moments: log 2; `rdData` in the state: log 7.) -/
def Obligations.ReadSeesCommandAndRepeats : Prop :=
  ∀ (s u : State) (w : CmdWord) (i : Instr) (a : RegAddr),
    s.params.valid = true → s.inputs = [[.command w, .read a, .read a]] → decodeCommand s.params w = .ok i →
    exec i { s with tickAck := false, rdData := none, inputs := [[.read a, .read a]] } = .next u →
    core.run 2 s = .next { u with tickAck := false, rdData := some (u.readReg a), inputs := [[.read a]] } ∧
    core.run 3 s = .next { u with tickAck := false, rdData := some (u.readReg a), inputs := [] }

/-! ### Rules of the whole machine -/

/-- R19's "written by", R23, R27, R30, R86, R8: which instructions can change each register and output. The parameters
and the requests to come change by none. A rejected command word, which is no instruction, changes CMD_ERR and ERR_CAUSE
alone (`RejectedWordChangesOnlyStatus`); SR is the one instruction that can reject (log 9). -/
def Obligations.RegistersChangeOnlyByTheirWriters : Prop :=
  ∀ (i : Instr) (s t : State), exec i s = .next t →
    t.params = s.params ∧ t.inputs = s.inputs ∧
    (i ≠ .reset →
      (t.mode ≠ s.mode → setsMode i = true) ∧
      (t.chI.idx ≠ s.chI.idx ∨ t.chQ.idx ≠ s.chQ.idx → i = .tick ∨ setsMode i = true) ∧
      (t.chI.inc ≠ s.chI.inc → (∃ f, i = .sine .i f) ∨ (∃ f, i = .tone f) ∨
        i = .modBpsk ∨ i = .modQpsk ∨ i = .mod8psk ∨ i = .mod16qam) ∧
      (t.chQ.inc ≠ s.chQ.inc → (∃ f, i = .sine .q f) ∨ (∃ f, i = .tone f) ∨
        i = .modBpsk ∨ i = .modQpsk ∨ i = .mod8psk ∨ i = .mod16qam) ∧
      (t.chI.dc ≠ s.chI.dc → ∃ mv, i = .dc .i mv) ∧ (t.chQ.dc ≠ s.chQ.dc → ∃ mv, i = .dc .q mv) ∧
      (t.chI.raw ≠ s.chI.raw → ∃ v, i = .raw .i v) ∧ (t.chQ.raw ≠ s.chQ.raw → ∃ v, i = .raw .q v) ∧
      (t.fsHz ≠ s.fsHz ∨ t.reload ≠ s.reload → ∃ r, i = .sr r) ∧
      (t.tickPend ≠ s.tickPend → i = .timerEvent ∨ i = .tick) ∧
      (t.trace ≠ s.trace → i = .tick) ∧ (t.tickAck ≠ s.tickAck → i = .tick) ∧
      (t.rdData ≠ s.rdData → ∃ a, i = .read a) ∧
      (t.status.cmdErr ≠ s.status.cmdErr ∨ t.status.errCause ≠ s.status.errCause →
        (∃ r, i = .sr r) ∨ ∃ m, i = .clrStatus m) ∧
      (t.status.rangeWarn ≠ s.status.rangeWarn ∨ t.status.warnCause ≠ s.status.warnCause →
        (∃ c v, i = .raw c v) ∨ (∃ c mv, i = .dc c mv) ∨ (∃ c f, i = .sine c f) ∨ (∃ f, i = .tone f) ∨
          ∃ m, i = .clrStatus m) ∧
      (t.status.overrun ≠ s.status.overrun → i = .timerEvent ∨ ∃ m, i = .clrStatus m))
end

