-- ==== Sys2Proof/Laws/State.lean ====
section
/-! SUPPORT. What each update of the state does to each field: one lemma per field and update, each true by
definition. -/

namespace Sys2Proof.Machine

/-! ### `State.enterMode` -/

@[simp] theorem State.enterMode_params (m : Mode) (s : State) : (s.enterMode m).params = s.params := rfl
@[simp] theorem State.enterMode_mode (m : Mode) (s : State) : (s.enterMode m).mode = m := rfl
@[simp] theorem State.enterMode_chI (m : Mode) (s : State) : (s.enterMode m).chI = { s.chI with idx := 0 } := rfl
@[simp] theorem State.enterMode_chQ (m : Mode) (s : State) : (s.enterMode m).chQ = { s.chQ with idx := 0 } := rfl
@[simp] theorem State.enterMode_fsHz (m : Mode) (s : State) : (s.enterMode m).fsHz = s.fsHz := rfl
@[simp] theorem State.enterMode_reload (m : Mode) (s : State) : (s.enterMode m).reload = s.reload := rfl
@[simp] theorem State.enterMode_status (m : Mode) (s : State) : (s.enterMode m).status = s.status := rfl
@[simp] theorem State.enterMode_tickPend (m : Mode) (s : State) : (s.enterMode m).tickPend = s.tickPend := rfl
@[simp] theorem State.enterMode_trace (m : Mode) (s : State) : (s.enterMode m).trace = s.trace := rfl
@[simp] theorem State.enterMode_tickAck (m : Mode) (s : State) : (s.enterMode m).tickAck = s.tickAck := rfl
@[simp] theorem State.enterMode_rdData (m : Mode) (s : State) : (s.enterMode m).rdData = s.rdData := rfl
@[simp] theorem State.enterMode_inputs (m : Mode) (s : State) : (s.enterMode m).inputs = s.inputs := rfl

/-! ### `State.cmdReject` -/

@[simp] theorem State.cmdReject_params (c : RejectCause) (s : State) : (s.cmdReject c).params = s.params := rfl
@[simp] theorem State.cmdReject_mode (c : RejectCause) (s : State) : (s.cmdReject c).mode = s.mode := rfl
@[simp] theorem State.cmdReject_chI (c : RejectCause) (s : State) : (s.cmdReject c).chI = s.chI := rfl
@[simp] theorem State.cmdReject_chQ (c : RejectCause) (s : State) : (s.cmdReject c).chQ = s.chQ := rfl
@[simp] theorem State.cmdReject_fsHz (c : RejectCause) (s : State) : (s.cmdReject c).fsHz = s.fsHz := rfl
@[simp] theorem State.cmdReject_reload (c : RejectCause) (s : State) : (s.cmdReject c).reload = s.reload := rfl
@[simp] theorem State.cmdReject_status (c : RejectCause) (s : State) : (s.cmdReject c).status = s.status.reject c := rfl
@[simp] theorem State.cmdReject_tickPend (c : RejectCause) (s : State) : (s.cmdReject c).tickPend = s.tickPend := rfl
@[simp] theorem State.cmdReject_trace (c : RejectCause) (s : State) : (s.cmdReject c).trace = s.trace := rfl
@[simp] theorem State.cmdReject_tickAck (c : RejectCause) (s : State) : (s.cmdReject c).tickAck = s.tickAck := rfl
@[simp] theorem State.cmdReject_rdData (c : RejectCause) (s : State) : (s.cmdReject c).rdData = s.rdData := rfl
@[simp] theorem State.cmdReject_inputs (c : RejectCause) (s : State) : (s.cmdReject c).inputs = s.inputs := rfl

/-! ### `State.warnIf` -/

@[simp] theorem State.warnIf_params (b : Bool) (c : WarnCause) (s : State) : (s.warnIf b c).params = s.params := rfl
@[simp] theorem State.warnIf_mode (b : Bool) (c : WarnCause) (s : State) : (s.warnIf b c).mode = s.mode := rfl
@[simp] theorem State.warnIf_chI (b : Bool) (c : WarnCause) (s : State) : (s.warnIf b c).chI = s.chI := rfl
@[simp] theorem State.warnIf_chQ (b : Bool) (c : WarnCause) (s : State) : (s.warnIf b c).chQ = s.chQ := rfl
@[simp] theorem State.warnIf_fsHz (b : Bool) (c : WarnCause) (s : State) : (s.warnIf b c).fsHz = s.fsHz := rfl
@[simp] theorem State.warnIf_reload (b : Bool) (c : WarnCause) (s : State) : (s.warnIf b c).reload = s.reload := rfl
@[simp] theorem State.warnIf_status (b : Bool) (c : WarnCause) (s : State) : (s.warnIf b c).status = if b then s.status.warn c else s.status := rfl
@[simp] theorem State.warnIf_tickPend (b : Bool) (c : WarnCause) (s : State) : (s.warnIf b c).tickPend = s.tickPend := rfl
@[simp] theorem State.warnIf_trace (b : Bool) (c : WarnCause) (s : State) : (s.warnIf b c).trace = s.trace := rfl
@[simp] theorem State.warnIf_tickAck (b : Bool) (c : WarnCause) (s : State) : (s.warnIf b c).tickAck = s.tickAck := rfl
@[simp] theorem State.warnIf_rdData (b : Bool) (c : WarnCause) (s : State) : (s.warnIf b c).rdData = s.rdData := rfl
@[simp] theorem State.warnIf_inputs (b : Bool) (c : WarnCause) (s : State) : (s.warnIf b c).inputs = s.inputs := rfl

/-! ### `State.emit` -/

@[simp] theorem State.emit_params (ev : TransportEvent) (s : State) : (s.emit ev).params = s.params := rfl
@[simp] theorem State.emit_mode (ev : TransportEvent) (s : State) : (s.emit ev).mode = s.mode := rfl
@[simp] theorem State.emit_chI (ev : TransportEvent) (s : State) : (s.emit ev).chI = s.chI := rfl
@[simp] theorem State.emit_chQ (ev : TransportEvent) (s : State) : (s.emit ev).chQ = s.chQ := rfl
@[simp] theorem State.emit_fsHz (ev : TransportEvent) (s : State) : (s.emit ev).fsHz = s.fsHz := rfl
@[simp] theorem State.emit_reload (ev : TransportEvent) (s : State) : (s.emit ev).reload = s.reload := rfl
@[simp] theorem State.emit_status (ev : TransportEvent) (s : State) : (s.emit ev).status = s.status := rfl
@[simp] theorem State.emit_tickPend (ev : TransportEvent) (s : State) : (s.emit ev).tickPend = s.tickPend := rfl
@[simp] theorem State.emit_trace (ev : TransportEvent) (s : State) : (s.emit ev).trace = s.trace ++ [ev] := rfl
@[simp] theorem State.emit_tickAck (ev : TransportEvent) (s : State) : (s.emit ev).tickAck = s.tickAck := rfl
@[simp] theorem State.emit_rdData (ev : TransportEvent) (s : State) : (s.emit ev).rdData = s.rdData := rfl
@[simp] theorem State.emit_inputs (ev : TransportEvent) (s : State) : (s.emit ev).inputs = s.inputs := rfl

/-! ### `State.acknowledge` -/

@[simp] theorem State.acknowledge_params (s : State) : (s.acknowledge).params = s.params := rfl
@[simp] theorem State.acknowledge_mode (s : State) : (s.acknowledge).mode = s.mode := rfl
@[simp] theorem State.acknowledge_chI (s : State) : (s.acknowledge).chI = s.chI := rfl
@[simp] theorem State.acknowledge_chQ (s : State) : (s.acknowledge).chQ = s.chQ := rfl
@[simp] theorem State.acknowledge_fsHz (s : State) : (s.acknowledge).fsHz = s.fsHz := rfl
@[simp] theorem State.acknowledge_reload (s : State) : (s.acknowledge).reload = s.reload := rfl
@[simp] theorem State.acknowledge_status (s : State) : (s.acknowledge).status = s.status := rfl
@[simp] theorem State.acknowledge_tickPend (s : State) : (s.acknowledge).tickPend = false := rfl
@[simp] theorem State.acknowledge_trace (s : State) : (s.acknowledge).trace = s.trace := rfl
@[simp] theorem State.acknowledge_tickAck (s : State) : (s.acknowledge).tickAck = true := rfl
@[simp] theorem State.acknowledge_rdData (s : State) : (s.acknowledge).rdData = s.rdData := rfl
@[simp] theorem State.acknowledge_inputs (s : State) : (s.acknowledge).inputs = s.inputs := rfl

/-! ### `State.beginStep` -/

@[simp] theorem State.beginStep_params (rest : List (List Request)) (s : State) : (s.beginStep rest).params = s.params := rfl
@[simp] theorem State.beginStep_mode (rest : List (List Request)) (s : State) : (s.beginStep rest).mode = s.mode := rfl
@[simp] theorem State.beginStep_chI (rest : List (List Request)) (s : State) : (s.beginStep rest).chI = s.chI := rfl
@[simp] theorem State.beginStep_chQ (rest : List (List Request)) (s : State) : (s.beginStep rest).chQ = s.chQ := rfl
@[simp] theorem State.beginStep_fsHz (rest : List (List Request)) (s : State) : (s.beginStep rest).fsHz = s.fsHz := rfl
@[simp] theorem State.beginStep_reload (rest : List (List Request)) (s : State) : (s.beginStep rest).reload = s.reload := rfl
@[simp] theorem State.beginStep_status (rest : List (List Request)) (s : State) : (s.beginStep rest).status = s.status := rfl
@[simp] theorem State.beginStep_tickPend (rest : List (List Request)) (s : State) : (s.beginStep rest).tickPend = s.tickPend := rfl
@[simp] theorem State.beginStep_trace (rest : List (List Request)) (s : State) : (s.beginStep rest).trace = s.trace := rfl
@[simp] theorem State.beginStep_tickAck (rest : List (List Request)) (s : State) : (s.beginStep rest).tickAck = false := rfl
@[simp] theorem State.beginStep_rdData (rest : List (List Request)) (s : State) : (s.beginStep rest).rdData = none := rfl
@[simp] theorem State.beginStep_inputs (rest : List (List Request)) (s : State) : (s.beginStep rest).inputs = rest := rfl

/-! ### `State.setChan` -/

@[simp] theorem State.setChan_params (c : Channel) (r : ChannelRegs) (s : State) : (s.setChan c r).params = s.params := by
  cases c <;> rfl
@[simp] theorem State.setChan_mode (c : Channel) (r : ChannelRegs) (s : State) : (s.setChan c r).mode = s.mode := by
  cases c <;> rfl
@[simp] theorem State.setChan_fsHz (c : Channel) (r : ChannelRegs) (s : State) : (s.setChan c r).fsHz = s.fsHz := by
  cases c <;> rfl
@[simp] theorem State.setChan_reload (c : Channel) (r : ChannelRegs) (s : State) : (s.setChan c r).reload = s.reload := by
  cases c <;> rfl
@[simp] theorem State.setChan_status (c : Channel) (r : ChannelRegs) (s : State) : (s.setChan c r).status = s.status := by
  cases c <;> rfl
@[simp] theorem State.setChan_tickPend (c : Channel) (r : ChannelRegs) (s : State) : (s.setChan c r).tickPend = s.tickPend := by
  cases c <;> rfl
@[simp] theorem State.setChan_trace (c : Channel) (r : ChannelRegs) (s : State) : (s.setChan c r).trace = s.trace := by
  cases c <;> rfl
@[simp] theorem State.setChan_tickAck (c : Channel) (r : ChannelRegs) (s : State) : (s.setChan c r).tickAck = s.tickAck := by
  cases c <;> rfl
@[simp] theorem State.setChan_rdData (c : Channel) (r : ChannelRegs) (s : State) : (s.setChan c r).rdData = s.rdData := by
  cases c <;> rfl
@[simp] theorem State.setChan_inputs (c : Channel) (r : ChannelRegs) (s : State) : (s.setChan c r).inputs = s.inputs := by
  cases c <;> rfl
@[simp] theorem State.setChan_i_chI (r : ChannelRegs) (s : State) : (s.setChan .i r).chI = r := rfl
@[simp] theorem State.setChan_i_chQ (r : ChannelRegs) (s : State) : (s.setChan .i r).chQ = s.chQ := rfl
@[simp] theorem State.setChan_q_chI (r : ChannelRegs) (s : State) : (s.setChan .q r).chI = s.chI := rfl
@[simp] theorem State.setChan_q_chQ (r : ChannelRegs) (s : State) : (s.setChan .q r).chQ = r := rfl
@[simp] theorem State.chan_i (s : State) : s.chan .i = s.chI := rfl
@[simp] theorem State.chan_q (s : State) : s.chan .q = s.chQ := rfl
@[simp] theorem State.chan_setChan (c : Channel) (r : ChannelRegs) (s : State) : (s.setChan c r).chan c = r := by
  cases c <;> rfl
theorem State.chan_setChan_of_ne (c d : Channel) (h : d ≠ c) (r : ChannelRegs) (s : State) :
    (s.setChan c r).chan d = s.chan d := by
  cases c <;> cases d <;> first | rfl | exact absurd rfl h

/-! ### `State.setRaw` -/

@[simp] theorem State.setRaw_params (c : Channel) (v : Code) (s : State) : (s.setRaw c v).params = s.params := by
  cases c <;> rfl
@[simp] theorem State.setRaw_mode (c : Channel) (v : Code) (s : State) : (s.setRaw c v).mode = s.mode := by
  cases c <;> rfl
@[simp] theorem State.setRaw_fsHz (c : Channel) (v : Code) (s : State) : (s.setRaw c v).fsHz = s.fsHz := by
  cases c <;> rfl
@[simp] theorem State.setRaw_reload (c : Channel) (v : Code) (s : State) : (s.setRaw c v).reload = s.reload := by
  cases c <;> rfl
@[simp] theorem State.setRaw_status (c : Channel) (v : Code) (s : State) : (s.setRaw c v).status = s.status := by
  cases c <;> rfl
@[simp] theorem State.setRaw_tickPend (c : Channel) (v : Code) (s : State) : (s.setRaw c v).tickPend = s.tickPend := by
  cases c <;> rfl
@[simp] theorem State.setRaw_trace (c : Channel) (v : Code) (s : State) : (s.setRaw c v).trace = s.trace := by
  cases c <;> rfl
@[simp] theorem State.setRaw_tickAck (c : Channel) (v : Code) (s : State) : (s.setRaw c v).tickAck = s.tickAck := by
  cases c <;> rfl
@[simp] theorem State.setRaw_rdData (c : Channel) (v : Code) (s : State) : (s.setRaw c v).rdData = s.rdData := by
  cases c <;> rfl
@[simp] theorem State.setRaw_inputs (c : Channel) (v : Code) (s : State) : (s.setRaw c v).inputs = s.inputs := by
  cases c <;> rfl
@[simp] theorem State.setRaw_chI (c : Channel) (v : Code) (s : State) :
    (s.setRaw c v).chI = { s.chI with raw := if c = .i then v else s.chI.raw } := by
  cases c <;> rfl
@[simp] theorem State.setRaw_chQ (c : Channel) (v : Code) (s : State) :
    (s.setRaw c v).chQ = { s.chQ with raw := if c = .q then v else s.chQ.raw } := by
  cases c <;> rfl

/-! ### `State.setDc` -/

@[simp] theorem State.setDc_params (c : Channel) (v : Code) (s : State) : (s.setDc c v).params = s.params := by
  cases c <;> rfl
@[simp] theorem State.setDc_mode (c : Channel) (v : Code) (s : State) : (s.setDc c v).mode = s.mode := by
  cases c <;> rfl
@[simp] theorem State.setDc_fsHz (c : Channel) (v : Code) (s : State) : (s.setDc c v).fsHz = s.fsHz := by
  cases c <;> rfl
@[simp] theorem State.setDc_reload (c : Channel) (v : Code) (s : State) : (s.setDc c v).reload = s.reload := by
  cases c <;> rfl
@[simp] theorem State.setDc_status (c : Channel) (v : Code) (s : State) : (s.setDc c v).status = s.status := by
  cases c <;> rfl
@[simp] theorem State.setDc_tickPend (c : Channel) (v : Code) (s : State) : (s.setDc c v).tickPend = s.tickPend := by
  cases c <;> rfl
@[simp] theorem State.setDc_trace (c : Channel) (v : Code) (s : State) : (s.setDc c v).trace = s.trace := by
  cases c <;> rfl
@[simp] theorem State.setDc_tickAck (c : Channel) (v : Code) (s : State) : (s.setDc c v).tickAck = s.tickAck := by
  cases c <;> rfl
@[simp] theorem State.setDc_rdData (c : Channel) (v : Code) (s : State) : (s.setDc c v).rdData = s.rdData := by
  cases c <;> rfl
@[simp] theorem State.setDc_inputs (c : Channel) (v : Code) (s : State) : (s.setDc c v).inputs = s.inputs := by
  cases c <;> rfl
@[simp] theorem State.setDc_chI (c : Channel) (v : Code) (s : State) :
    (s.setDc c v).chI = { s.chI with dc := if c = .i then v else s.chI.dc } := by
  cases c <;> rfl
@[simp] theorem State.setDc_chQ (c : Channel) (v : Code) (s : State) :
    (s.setDc c v).chQ = { s.chQ with dc := if c = .q then v else s.chQ.dc } := by
  cases c <;> rfl

/-! ### `State.setInc` -/

@[simp] theorem State.setInc_params (c : Channel) (v : Code) (s : State) : (s.setInc c v).params = s.params := by
  cases c <;> rfl
@[simp] theorem State.setInc_mode (c : Channel) (v : Code) (s : State) : (s.setInc c v).mode = s.mode := by
  cases c <;> rfl
@[simp] theorem State.setInc_fsHz (c : Channel) (v : Code) (s : State) : (s.setInc c v).fsHz = s.fsHz := by
  cases c <;> rfl
@[simp] theorem State.setInc_reload (c : Channel) (v : Code) (s : State) : (s.setInc c v).reload = s.reload := by
  cases c <;> rfl
@[simp] theorem State.setInc_status (c : Channel) (v : Code) (s : State) : (s.setInc c v).status = s.status := by
  cases c <;> rfl
@[simp] theorem State.setInc_tickPend (c : Channel) (v : Code) (s : State) : (s.setInc c v).tickPend = s.tickPend := by
  cases c <;> rfl
@[simp] theorem State.setInc_trace (c : Channel) (v : Code) (s : State) : (s.setInc c v).trace = s.trace := by
  cases c <;> rfl
@[simp] theorem State.setInc_tickAck (c : Channel) (v : Code) (s : State) : (s.setInc c v).tickAck = s.tickAck := by
  cases c <;> rfl
@[simp] theorem State.setInc_rdData (c : Channel) (v : Code) (s : State) : (s.setInc c v).rdData = s.rdData := by
  cases c <;> rfl
@[simp] theorem State.setInc_inputs (c : Channel) (v : Code) (s : State) : (s.setInc c v).inputs = s.inputs := by
  cases c <;> rfl
@[simp] theorem State.setInc_chI (c : Channel) (v : Code) (s : State) :
    (s.setInc c v).chI = { s.chI with inc := if c = .i then v else s.chI.inc } := by
  cases c <;> rfl
@[simp] theorem State.setInc_chQ (c : Channel) (v : Code) (s : State) :
    (s.setInc c v).chQ = { s.chQ with inc := if c = .q then v else s.chQ.inc } := by
  cases c <;> rfl

/-! ### `State.setIdx` -/

@[simp] theorem State.setIdx_params (c : Channel) (v : Code) (s : State) : (s.setIdx c v).params = s.params := by
  cases c <;> rfl
@[simp] theorem State.setIdx_mode (c : Channel) (v : Code) (s : State) : (s.setIdx c v).mode = s.mode := by
  cases c <;> rfl
@[simp] theorem State.setIdx_fsHz (c : Channel) (v : Code) (s : State) : (s.setIdx c v).fsHz = s.fsHz := by
  cases c <;> rfl
@[simp] theorem State.setIdx_reload (c : Channel) (v : Code) (s : State) : (s.setIdx c v).reload = s.reload := by
  cases c <;> rfl
@[simp] theorem State.setIdx_status (c : Channel) (v : Code) (s : State) : (s.setIdx c v).status = s.status := by
  cases c <;> rfl
@[simp] theorem State.setIdx_tickPend (c : Channel) (v : Code) (s : State) : (s.setIdx c v).tickPend = s.tickPend := by
  cases c <;> rfl
@[simp] theorem State.setIdx_trace (c : Channel) (v : Code) (s : State) : (s.setIdx c v).trace = s.trace := by
  cases c <;> rfl
@[simp] theorem State.setIdx_tickAck (c : Channel) (v : Code) (s : State) : (s.setIdx c v).tickAck = s.tickAck := by
  cases c <;> rfl
@[simp] theorem State.setIdx_rdData (c : Channel) (v : Code) (s : State) : (s.setIdx c v).rdData = s.rdData := by
  cases c <;> rfl
@[simp] theorem State.setIdx_inputs (c : Channel) (v : Code) (s : State) : (s.setIdx c v).inputs = s.inputs := by
  cases c <;> rfl
@[simp] theorem State.setIdx_chI (c : Channel) (v : Code) (s : State) :
    (s.setIdx c v).chI = { s.chI with idx := if c = .i then v else s.chI.idx } := by
  cases c <;> rfl
@[simp] theorem State.setIdx_chQ (c : Channel) (v : Code) (s : State) :
    (s.setIdx c v).chQ = { s.chQ with idx := if c = .q then v else s.chQ.idx } := by
  cases c <;> rfl

/-! ### `State.advance` -/

@[simp] theorem State.advance_params (c : Channel) (s : State) : (s.advance c).params = s.params := by
  cases c <;> rfl
@[simp] theorem State.advance_mode (c : Channel) (s : State) : (s.advance c).mode = s.mode := by
  cases c <;> rfl
@[simp] theorem State.advance_fsHz (c : Channel) (s : State) : (s.advance c).fsHz = s.fsHz := by
  cases c <;> rfl
@[simp] theorem State.advance_reload (c : Channel) (s : State) : (s.advance c).reload = s.reload := by
  cases c <;> rfl
@[simp] theorem State.advance_status (c : Channel) (s : State) : (s.advance c).status = s.status := by
  cases c <;> rfl
@[simp] theorem State.advance_tickPend (c : Channel) (s : State) : (s.advance c).tickPend = s.tickPend := by
  cases c <;> rfl
@[simp] theorem State.advance_trace (c : Channel) (s : State) : (s.advance c).trace = s.trace := by
  cases c <;> rfl
@[simp] theorem State.advance_tickAck (c : Channel) (s : State) : (s.advance c).tickAck = s.tickAck := by
  cases c <;> rfl
@[simp] theorem State.advance_rdData (c : Channel) (s : State) : (s.advance c).rdData = s.rdData := by
  cases c <;> rfl
@[simp] theorem State.advance_inputs (c : Channel) (s : State) : (s.advance c).inputs = s.inputs := by
  cases c <;> rfl
@[simp] theorem State.advance_i_chI (s : State) : (s.advance .i).chI = { s.chI with idx := advancedIdx s.mode s.chI } := rfl
@[simp] theorem State.advance_i_chQ (s : State) : (s.advance .i).chQ = s.chQ := rfl
@[simp] theorem State.advance_q_chI (s : State) : (s.advance .q).chI = s.chI := rfl
@[simp] theorem State.advance_q_chQ (s : State) : (s.advance .q).chQ = { s.chQ with idx := advancedIdx s.mode s.chQ } := rfl

end Sys2Proof.Machine
end

