-- ==== Sys2Proof/Laws/Ops.lean ====
section
/-! SUPPORT. What each shared operation can do, said once: the decoder, the operand computations, the lookup, the tick,
the header-only trace, the choice of the next request and the step. -/

namespace Sys2Proof

/-- The decoder accepts a word where no check of R57 applies and OP names an instruction. -/
theorem decode_ok {w : CmdWord} {i : Instr} (h : decode w = .ok i) : firstReject w = none ∧ assemble w = some i := by
  unfold decode at h
  split at h
  · cases h
  · rename_i h₁
    split at h
    · rename_i h₂
      cases h
      exact ⟨h₁, h₂⟩
    · cases h

/-- R57 whole accepts a word that `decode` accepts and whose rate, if it has one, is legal. -/
theorem decodeCommand_ok {p : Params} {w : CmdWord} {i : Instr} (h : decodeCommand p w = .ok i) :
    decode w = .ok i ∧ i.wellFormed p = true := by
  unfold decodeCommand at h
  split at h
  · cases h
  · rename_i h₁
    split at h
    · rename_i h₂
      cases h
      exact ⟨h₁, h₂⟩
    · cases h

/-- No event and no read is a command word (R59). -/
theorem decode_ok_isCommand {w : CmdWord} {i : Instr} (h : decode w = .ok i) :
    i ≠ .timerEvent ∧ i ≠ .tick ∧ (∀ a, i ≠ .read a) ∧ i ≠ .reset := by
  have h := (decode_ok h).2
  unfold assemble modOf filterOf at h
  repeat' split at h
  all_goals first
    | (cases h; done)
    | (cases h; exact ⟨nofun, nofun, nofun, nofun⟩)

namespace Machine

/-- A clamped value is a code (R13). -/
theorem clamp_mem (v : Int) : 0 ≤ clamp v ∧ clamp v ≤ 4095 := by
  unfold clamp
  omega

/-- The clamp changes a value exactly where it lies outside [0, 4095] (R92, R94). -/
theorem clamp_eq_self_iff (v : Int) : clamp v = v ↔ 0 ≤ v ∧ v ≤ 4095 := by
  unfold clamp
  omega

/-- An integer in [0, 4095] survives the narrowing to 12 bits (R84). -/
theorem code12_toInt {v : Int} (h₀ : 0 ≤ v) (h₁ : v ≤ 4095) : ((code12 v).toNat : Int) = v := by
  simp only [code12, BitVec.toNat_ofInt]
  omega

/-- Every table has between 1 and 4096 entries (R21). -/
theorem tableLength_bounds (m : Mode) : 1 ≤ tableLength m ∧ tableLength m ≤ 4096 := by
  cases m <;> decide

/-- The index after an advance is the sum modulo the table length, as a number, and inside the table (R67). -/
theorem advancedIdx_toNat (m : Mode) (r : ChannelRegs) :
    (advancedIdx m r).toNat = (r.idx.toNat + r.inc.toNat) % tableLength m := by
  have h := tableLength_bounds m
  have : (r.idx.toNat + r.inc.toNat) % tableLength m < tableLength m := Nat.mod_lt _ (by omega)
  simp only [advancedIdx, BitVec.toNat_ofNat]
  omega

theorem advancedIdx_lt (m : Mode) (r : ChannelRegs) : (advancedIdx m r).toNat < tableLength m := by
  have h := tableLength_bounds m
  rw [advancedIdx_toNat]
  exact Nat.mod_lt _ (by omega)

/-- The lookup answers wherever IDX_I lies inside the mode's table (R22, R77). -/
theorem lookup_isSome {s : State} (h : s.chI.idx.toNat < tableLength s.mode) : ∃ v, lookup s = some v := by
  unfold lookup
  have pair : ∀ m a b, a < (constLevels (gainOf s.params .i) .i m).length →
      b < (constLevels (gainOf s.params .q) .q m).length → ∃ v, constPair s.params m a b = some v := by
    intro m a b ha hb
    simp [constPair, constEntry, List.getElem?_eq_getElem ha, List.getElem?_eq_getElem hb]
  cases hm : s.mode <;> simp only [hm, tableLength] at h ⊢
  · exact ⟨_, rfl⟩
  · exact ⟨_, rfl⟩
  · exact ⟨_, rfl⟩
  · exact pair .bpsk _ _ (by simpa [constLevels] using h) (by simpa [constLevels] using h)
  · generalize s.chI.idx.toNat = j at h ⊢
    exact pair .qpsk _ _ (by interval_cases j <;> simp [constLevels]) (by interval_cases j <;> simp [constLevels])
  · exact pair .psk8 _ _ (by simpa [constLevels] using h) (by simpa [constLevels] using h)
  · generalize s.chI.idx.toNat = j at h ⊢
    exact pair .qam16 _ _ (by interval_cases j <;> simp [constLevels]) (by interval_cases j <;> simp [constLevels])

/-- A burst changes the trace and nothing else (R88). -/
theorem emitBurst_eq (s : State) (vI vQ : Code) : s.emitBurst vI vQ =
    { s with trace := s.trace ++ [.latch, .word (dacWord .q vQ), .word (dacWord .i vI)] } := by
  simp [State.emitBurst, State.emit]

/-- What a tick that gives a next state has done (R100). -/
theorem execTick_next {s t : State} (h : execTick s = .next t) :
    s.tickPend = true ∧ ∃ v, lookup s = some v ∧
      t = (((s.emitBurst v.1 v.2).advance .i).advance .q).acknowledge := by
  unfold execTick at h
  split at h
  · rename_i hp
    split at h
    · rename_i v hv
      cases h
      exact ⟨hp, v, hv, rfl⟩
    · cases h
  · cases h

/-- One header-only burst more (R126). -/
theorem headerBursts_succ (n : Nat) : headerBursts (n + 1) = headerBursts n ++ [.latch, .word 0xB000, .word 0x3000] := by
  simp [headerBursts, List.replicate_succ']

/-- A request is taken: it is a reset, the head of its moment, or the dispatcher's turn where nothing is offered. -/
theorem nextRequest_cases (inputs : List (List Request)) :
    (inputs = [] ∧ nextRequest inputs = (.tick, [])) ∨
    (∃ m later, inputs = m :: later ∧ Request.reset ∈ m ∧ nextRequest inputs = (.reset, later)) ∨
    (∃ later, inputs = [] :: later ∧ nextRequest inputs = (.tick, later)) ∨
    (∃ r rs later, inputs = (r :: rs) :: later ∧ Request.reset ∉ r :: rs ∧
      nextRequest inputs = (r, leftOver rs later)) := by
  match inputs with
  | [] => exact .inl ⟨rfl, rfl⟩
  | m :: later =>
    by_cases hm : Request.reset ∈ m
    · exact .inr (.inl ⟨m, later, rfl, hm, by simp [nextRequest, hm]⟩)
    · match m, hm with
      | [], _ => exact .inr (.inr (.inl ⟨later, rfl, rfl⟩))
      | r :: rs, hm => exact .inr (.inr (.inr ⟨r, rs, later, rfl, hm, by simp only [nextRequest, if_neg hm]⟩))

/-- A step that gives a next state served the next request, under legal parameters. -/
theorem step_next {s t : State} (h : step s = .next t) :
    s.params.valid = true ∧
      serve (nextRequest s.inputs).1 (s.beginStep (nextRequest s.inputs).2) = .next t := by
  unfold step at h
  split at h
  · rename_i hv
    exact ⟨hv, h⟩
  · cases h

end Machine

end Sys2Proof
end

