-- ==== Sys2Proof/Laws/PerInstr.lean ====
section
/-! SUPPORT. Statements about every instruction, one lemma per constructor. -/

namespace Sys2Proof.Laws

/-- R51, R53: the word of an instruction has an opcode in 0x1..0x8 and RSV = 0, and CH = 0 where the instruction names no
channel (OP ≥ 4). -/
def EncodedFields.Statement (i : Instr) : Prop :=
  ∀ w, encode i = some w → 1 ≤ (opField w).toNat ∧ (opField w).toNat ≤ 8 ∧ rsvField w = 0 ∧
    (4 ≤ (opField w).toNat → chField w = 0)

/-- The fields of a word built by `commandWord`. -/
theorem commandWord_fields (op : BitVec 4) (ch : BitVec 1) (arg : Word32) :
    opField (commandWord op ch arg) = op ∧ chField (commandWord op ch arg) = ch ∧
    rsvField (commandWord op ch arg) = 0 ∧ argField (commandWord op ch arg) = arg := by
  refine ⟨?_, ?_, ?_, ?_⟩ <;> ext k hk <;>
    simp only [opField, chField, rsvField, argField, commandWord, BitVec.getElem_extractLsb', BitVec.getLsbD_append]
  · simp [show ¬ 60 + k < 32 by omega, show ¬ 60 + k - 32 < 27 by omega, show ¬ 60 + k - 32 - 27 = 0 by omega,
      show 60 + k - 32 - 27 - 1 = k by omega, BitVec.getLsbD_eq_getElem hk]
  · obtain rfl : k = 0 := by omega
    simp
  · simp [show ¬ 32 + k < 32 by omega, hk]
  · simp [hk]

theorem EncodedFields.of_commandWord {i : Instr} {op : BitVec 4} {ch : BitVec 1} {arg : Word32}
    (h : encode i = some (commandWord op ch arg)) (h₁ : 1 ≤ op.toNat) (h₂ : op.toNat ≤ 8)
    (h₃ : 4 ≤ op.toNat → ch = 0) : EncodedFields.Statement i := by
  intro w hw
  obtain rfl : commandWord op ch arg = w := Option.some.inj (h.symm.trans hw)
  obtain ⟨ho, hc, hr, -⟩ := commandWord_fields op ch arg
  rw [ho, hc, hr]
  exact ⟨h₁, h₂, rfl, h₃⟩

theorem EncodedFields.raw (c : Channel) (v : Word32) : EncodedFields.Statement (.raw c v) :=
  EncodedFields.of_commandWord rfl (by decide) (by decide) (fun h => absurd h (by decide))
theorem EncodedFields.dc (c : Channel) (mv : Word32) : EncodedFields.Statement (.dc c mv) :=
  EncodedFields.of_commandWord rfl (by decide) (by decide) (fun h => absurd h (by decide))
theorem EncodedFields.sine (c : Channel) (f : Word32) : EncodedFields.Statement (.sine c f) :=
  EncodedFields.of_commandWord rfl (by decide) (by decide) (fun h => absurd h (by decide))
theorem EncodedFields.tone (f : Word32) : EncodedFields.Statement (.tone f) :=
  EncodedFields.of_commandWord rfl (by decide) (by decide) (by decide)
theorem EncodedFields.modBpsk : EncodedFields.Statement .modBpsk :=
  EncodedFields.of_commandWord rfl (by decide) (by decide) (by decide)
theorem EncodedFields.modQpsk : EncodedFields.Statement .modQpsk :=
  EncodedFields.of_commandWord rfl (by decide) (by decide) (by decide)
theorem EncodedFields.mod8psk : EncodedFields.Statement .mod8psk :=
  EncodedFields.of_commandWord rfl (by decide) (by decide) (by decide)
theorem EncodedFields.mod16qam : EncodedFields.Statement .mod16qam :=
  EncodedFields.of_commandWord rfl (by decide) (by decide) (by decide)
theorem EncodedFields.sr (r : Word32) : EncodedFields.Statement (.sr r) :=
  EncodedFields.of_commandWord rfl (by decide) (by decide) (by decide)
theorem EncodedFields.filterOff : EncodedFields.Statement .filterOff :=
  EncodedFields.of_commandWord rfl (by decide) (by decide) (by decide)
theorem EncodedFields.filterRrc : EncodedFields.Statement .filterRrc :=
  EncodedFields.of_commandWord rfl (by decide) (by decide) (by decide)
theorem EncodedFields.clrStatus (m : BitVec 3) : EncodedFields.Statement (.clrStatus m) :=
  EncodedFields.of_commandWord rfl (by decide) (by decide) (by decide)
theorem EncodedFields.timerEvent : EncodedFields.Statement .timerEvent := nofun
theorem EncodedFields.tick : EncodedFields.Statement .tick := nofun
theorem EncodedFields.read (a : RegAddr) : EncodedFields.Statement (.read a) := nofun
theorem EncodedFields.reset : EncodedFields.Statement .reset := nofun

end Sys2Proof.Laws
end

