-- ==== Sys2Proof/Laws/Run.lean ====
section
/-! SUPPORT. Runs of several steps, one step at a time. -/

namespace Sys2Proof.Machine

theorem core_run_zero (s : State) : core.run 0 s = .next s := rfl

/-- A run whose first step gives u goes on from u. -/
theorem core_run_succ {s u : State} (k : Nat) (h : step s = .next u) : core.run (k + 1) s = core.run k u := by
  have h : core.step s = .next u := h
  simp only [Host.Core.run, h]

/-- A run of k + 1 steps that gives a next state took a first step and then k more. -/
theorem core_run_next {k : Nat} {s t : State} (h : core.run (k + 1) s = .next t) :
    ∃ u, step s = .next u ∧ core.run k u = .next t := by
  cases hs : step s with
  | next u => exact ⟨u, rfl, core_run_succ k hs ▸ h⟩
  | fault r => exact r.casesOn
  | refused r =>
    have hs : core.step s = .refused r := hs
    simp only [Host.Core.run, hs] at h
    cases h

end Sys2Proof.Machine
end

