-- ==== Sys2Proof/Tests/Slice0.lean ====
section
/-! SUPPORT. The model's own tests. Expected values are those of spec/95_test_vectors.md (parameter set P0) and
spec/30_encoding.md R62; each test names its source. The last part shows, for each statement that has hypotheses, values
that meet them all. -/

namespace Sys2Proof.Tests

open Sys2Proof.Machine

/-- What `f` sees of a next state; nothing of a stop. -/
def seen {α : Type} (f : State → α) : Host.Outcome State Fault Refusal → Option α
  | .next s => some (f s)
  | .fault _ => none
  | .refused _ => none

/-- One step from reset on a command word. -/
def afterWord {α : Type} (w : Nat) (f : State → α) : Option α := seen f (step (State.reset.withFetchWord 64 w))

/-- The state right after reset with a tick pending. -/
def pending : State := { State.reset with tickPend := true }

/-- A state with a mode, both indices and both increments, and a tick pending. -/
def symbolState (m : Mode) (idxI idxQ incI incQ : Code) : State :=
  { pending with mode := m, chI := ⟨idxI, incI, 0, 0⟩, chQ := ⟨idxQ, incQ, 0, 0⟩ }

/-! ### Well-formedness: each check refuses an ill-formed term -/

theorem test_p0_valid : Config.p0.valid = true := by decide
theorem test_wf_refuses_rate_zero : (Instr.sr 0).wellFormed Config.p0 = false := by decide
theorem test_wf_refuses_rate_above_clock : (Instr.sr 80000001).wellFormed Config.p0 = false := by decide
theorem test_wf_accepts_rate_of_clock : (Instr.sr 80000000).wellFormed Config.p0 = true := by decide
theorem test_wf_refuses_gain_above_offset : ({ Config.p0 with gainI := 2049 } : Params).valid = false := by decide
theorem test_wf_refuses_sum_above_full_scale : ({ Config.p0 with offsetQ := 2049 } : Params).valid = false := by decide
theorem test_wf_refuses_clock_zero : ({ Config.p0 with clkHz := 0 } : Params).valid = false := by decide
theorem test_wf_refuses_clock_too_wide : ({ Config.p0 with clkHz := 2 ^ 32 } : Params).valid = false := by decide
theorem test_wf_refuses_reset_rate_zero : ({ Config.p0 with fsResetHz := 0 } : Params).valid = false := by decide
theorem test_wf_refuses_reset_rate_above_clock :
    ({ Config.p0 with fsResetHz := 80000001 } : Params).valid = false := by decide
theorem test_wf_refuses_no_hold : ({ Config.p0 with ldacHold := 0 } : Params).valid = false := by decide
theorem test_wf_refuses_no_latency : ({ Config.p0 with tickLatency := 0 } : Params).valid = false := by decide
theorem test_step_refuses_bad_configuration :
    step { State.reset with params := { Config.p0 with gainI := 2049 } } = .refused .invalidConfiguration := by rfl

/-! ### Decoding: words written out from R51 and R53 (OP, CH, RSV, ARG) -/

theorem test_decode_raw : decode (0b0001#4 ++ 1#1 ++ 0#27 ++ 5000#32) = .ok (.raw .q 5000) := by rfl
theorem test_decode_dc : decode (0b0010#4 ++ 0#1 ++ 0#27 ++ 0xFFFFFE0C#32) = .ok (.dc .i (-500)) := by rfl
theorem test_decode_sine : decode (0b0011#4 ++ 1#1 ++ 0#27 ++ 0xFFFFFC18#32) = .ok (.sine .q (-1000)) := by rfl
theorem test_decode_tone : decode (0b0100#4 ++ 0#1 ++ 0#27 ++ 12500#32) = .ok (.tone 12500) := by rfl
theorem test_decode_mod_bpsk : decode (0b0101#4 ++ 0#1 ++ 0#27 ++ 0#32) = .ok .modBpsk := by rfl
theorem test_decode_mod_qpsk : decode (0b0101#4 ++ 0#1 ++ 0#27 ++ 1#32) = .ok .modQpsk := by rfl
theorem test_decode_mod_8psk : decode (0b0101#4 ++ 0#1 ++ 0#27 ++ 2#32) = .ok .mod8psk := by rfl
theorem test_decode_mod_16qam : decode (0b0101#4 ++ 0#1 ++ 0#27 ++ 3#32) = .ok .mod16qam := by rfl
theorem test_decode_sr : decode (0b0110#4 ++ 0#1 ++ 0#27 ++ 0x04C4B400#32) = .ok (.sr 80000000) := by rfl
theorem test_decode_filter_off : decode (0b0111#4 ++ 0#1 ++ 0#27 ++ 0#32) = .ok .filterOff := by rfl
theorem test_decode_filter_rrc : decode (0b0111#4 ++ 0#1 ++ 0#27 ++ 1#32) = .ok .filterRrc := by rfl
theorem test_decode_clr_status : decode (0b1000#4 ++ 0#1 ++ 0#27 ++ 5#32) = .ok (.clrStatus 5) := by rfl
theorem test_table_word_sr : decodeTableWord 64 0x60000000000186A0 = some (.sr 100000) := by rfl
theorem test_table_word_reserved : decodeTableWord 64 0xA000000000000000 = none := by rfl

/-- V-DEC: the cause each malformed word is rejected with (from reset, P0). -/
def rejectedWith (w : Nat) : Option RejectCause :=
  match decodeCommand Config.p0 (BitVec.ofNat 64 w) with
  | .ok _ => none
  | .error c => some c

theorem test_vdec_reserved_opcode : [0x0000000000000000, 0x9000000000000000, 0xF800000100000000].map rejectedWith =
    List.replicate 3 (some .reservedOpcode) := by decide
theorem test_vdec_reserved_field :
    [0x1000000100000064, 0x3C000000000003E8, 0x4800000000000064, 0x68000000000186A0, 0x500000000000000C,
      0x8800000000000007, 0x7000000080000001, 0x5800000000000001, 0x8000000000000008].map rejectedWith =
    List.replicate 9 (some .reservedField) := by decide
theorem test_vdec_reserved_selector :
    [0x5000000000000004, 0x5000000000000005, 0x5000000000000006, 0x5000000000000007].map rejectedWith =
    List.replicate 4 (some .reservedSelector) := by decide
theorem test_vdec_invalid_rate : [0x6000000000000000, 0x6000000004C4B401, 0x60000000FFFFFFFF].map rejectedWith =
    List.replicate 3 (some .invalidRate) := by decide
theorem test_vdec_status_after_reserved_opcode : afterWord 0xA000000000000000 State.statusWord = some 0x11 := by decide
theorem test_vdec_status_after_selector : afterWord 0x5000000000000004 State.statusWord = some 0x31 := by decide

/-- X2 and X7: text commands of the source and their words. -/
theorem test_text_words : [transcribe (.dc .i 25 2), transcribe (.dc .i 0 1), transcribe (.dc .i (-5) 1),
    transcribe (.dc .i 5 1), transcribe (.sine .i 1000 (some "0.5"))] =
    [.word 0x20000000000000FA, .word 0x2000000000000000, .word 0x20000000FFFFFE0C, .word 0x20000000000001F4,
      .word 0x30000000000003E8] := by decide
/-- X6 and R60: text that gives no word. -/
theorem test_text_nothing : [transcribe (.other "xyz"), transcribe .help, transcribe (.dc .i 2500 4),
    transcribe (.raw .q 2147483648), transcribe (.sr (-1))] = List.replicate 5 .nothing ∧
    transcribe .reboot = .resetInput := by decide

/-! ### Commands: V-RAW, V-DC, V-SINE, V-MOD, V-FILTER, V-CLR, V-SR -/

theorem test_vraw_above : afterWord 0x1800000000001388 (fun s => (s.chQ.raw, s.mode, s.statusWord)) =
    some (4095, .raw, 0x102) := by decide
theorem test_vraw_negative : afterWord 0x10000000FFFFFFFF (fun s => (s.chI.raw, s.statusWord)) = some (0, 0x102) := by
  decide
theorem test_vdc_tie_up : afterWord 0x20000000FFFFFF38 (fun s => (s.chI.dc, s.mode, s.statusWord)) =
    some (2867, .dc, 0) := by decide
theorem test_vdc_clamped : afterWord 0x20000000000001F5 (fun s => (s.chI.dc, s.statusWord)) = some (0, 0x202) := by decide
/-- V-DC, the whole column of dcmap. -/
theorem test_vdc_map : [-1000, -501, -500, -499, -400, -250, -200, -1, 0, 1, 100, 200, 250, 400, 499, 500, 501, 1000,
    2147483647, -2147483648].map dcmap = [6143, 4099, 4095, 4091, 3686, 3071, 2867, 2052, 2048, 2043, 1638, 1229, 1024,
    410, 4, 0, -4, -2047, -8793943487, 8793947586] := by decide
/-- V-DDS, at Fs = 100000. -/
theorem test_vdds_incr : [0, 1, 24, 25, -1, -24, 1000, -1000, 12500, -12500, 25000, -25000, 50000, -50000, 50001, -50001,
    99999, 100000, 2147483647, -2147483648].map (fun f => (incr f 100000).toNat) = [0, 0, 0, 1, 4095, 4095, 40, 4055, 512,
    3584, 1024, 3072, 2048, 2048, 2048, 2047, 4095, 0, 3426, 669] := by decide
theorem test_vdds_small_rates : [incr 1 1, incr 0 1, incr 1 2, incr (-1) 2, incr 12500 50000, incr 1000 80000000] =
    [0, 0, 2048, 2048, 1024, 0] := by decide
theorem test_vsine_one_channel : afterWord 0x38000000FFFFFC18 (fun s => (s.chI.inc, s.chQ.inc, s.mode, s.statusWord)) =
    some (1, 4055, .sine, 0) := by decide
theorem test_vsine_out_of_range : afterWord 0x300000000000C351 (fun s => (s.chI.inc, s.statusWord)) =
    some (2048, 0x302) := by decide
theorem test_vsine_tone : afterWord 0x40000000FFFFFFFF (fun s => (s.chI.inc, s.chQ.inc, s.statusWord)) =
    some (4095, 4095, 0) := by decide
theorem test_vsine_tone_alias : afterWord 0x40000000000186A0 (fun s => (s.chI.inc, s.chQ.inc, s.statusWord)) =
    some (0, 0, 0x302) := by decide
/-- V-MOD: the four rows from MODE = Sine, IDX = 120, 3, INC = 40, 1. -/
theorem test_vmod_rows : [Instr.modBpsk, .modQpsk, .mod8psk, .mod16qam].map (fun i => seen
    (fun s => (s.mode, s.chI.idx, s.chQ.idx, s.chI.inc, s.chQ.inc)) (exec i (symbolState .sine 120 3 40 1))) =
    [some (.bpsk, 0, 0, 1, 1), some (.qpsk, 0, 0, 1, 1), some (.psk8, 0, 0, 1, 1), some (.qam16, 0, 0, 1, 1)] := by decide
theorem test_vfilter : [exec .filterOff pending, exec .filterRrc pending].map (seen id) = [some pending, some pending] := by
  rfl
/-- V-CLR: every mask from STATUS = 0x12F. -/
theorem test_vclr_masks : (List.range 8).map (fun m => seen State.statusWord (exec (.clrStatus (BitVec.ofNat 3 m))
    { pending with status := ⟨true, true, true, 2, 1⟩ })) =
    [some 0x12F, some 0x10E, some 0x2D, some 0xC, some 0x12B, some 0x10A, some 0x29, some 0x8] := by decide
/-- V-SR: FS_HZ and RELOAD after each accepted rate. -/
theorem test_vsr_rates : [0x60000000000186A0, 0x600000000000C350, 0x6000000000000001, 0x6000000000000003,
    0x6000000000000007, 0x6000000004C4B400, 0x600000000000BB80].map (fun w => afterWord w (fun s => (s.fsHz, s.reload))) =
    [some (100000, 800), some (50000, 1600), some (1, 80000000), some (3, 26666666), some (7, 11428571),
      some (80000000, 1), some (48000, 1666)] := by decide
theorem test_vsr_rejected : afterWord 0x6000000004C4B401 (fun s => (s.fsHz, s.reload, s.statusWord)) =
    some (100000, 800, 0x41) := by decide

/-! ### Tables and encoder: V-TAB, V-CONST, V-ENC -/

/-- V-TAB: SINE_ROM_I at the listed indices. -/
theorem test_vtab_i : [0, 1, 2, 3, 256, 341, 512, 683, 768, 1000, 1023, 1024, 1025, 1536, 2047, 2048, 2049, 2560, 3071,
    3072, 3073, 3584, 4094, 4095].map (fun k => (sineRom Config.p0 .i k).toNat) = [2048, 2051, 2054, 2057, 2831, 3071,
    3495, 3821, 3939, 4094, 4095, 4095, 4095, 3495, 2051, 2048, 2045, 601, 1, 1, 1, 601, 2042, 2045] := by decide
/-- V-TAB: SINE_ROM_Q at the listed indices. -/
theorem test_vtab_q : [0, 1, 2, 3, 256, 341, 512, 683, 768, 1000, 1023, 1024, 1025, 1536, 2047, 2048, 2049, 2560, 3071,
    3072, 3073, 3584, 4094, 4095].map (fun k => (sineRom Config.p0 .q k).toNat) = [4095, 4095, 4095, 4095, 3939, 3821,
    3495, 3071, 2831, 2123, 2051, 2048, 2045, 601, 1, 1, 1, 601, 2045, 2048, 2051, 3495, 4095, 4095] := by decide
/-- V-CONST: D and T for G = 100, 1, 50, 2047. -/
theorem test_vconst_levels : [100, 1, 2047].map diagLevel = [71, 1, 1447] ∧
    [100, 1, 50, 2047].map innerLevel = [33, 0, 17, 676] := by decide
/-- V-CONST: the pairs (vI, vQ) of PSK8, entry by entry. -/
theorem test_vconst_psk8 : (List.range 8).map (fun j => lookup (symbolState .psk8 (BitVec.ofNat 12 j) 0 1 1)) =
    [some (4095, 2048), some (3495, 3495), some (2048, 4095), some (601, 3495), some (1, 2048), some (601, 601),
      some (2048, 1), some (3495, 601)] := by decide
/-- V-CONST: the pairs of QAM16 at j = 1, 6, 11, 12. -/
theorem test_vconst_qam16 : [1, 6, 11, 12].map (fun j => lookup (symbolState .qam16 j 0 1 1)) =
    [some (2724, 4095), some (1372, 2724), some (1, 1372), some (4095, 1)] := by decide
theorem test_vconst_bpsk_qpsk : [lookup (symbolState .bpsk 1 0 1 1), lookup (symbolState .qpsk 2 0 1 1)] =
    [some (1, 2048), some (4095, 1)] := by decide
theorem test_venc : [dacWord .i 4095, dacWord .q 0, dacWord .i 2730, dacWord .q 1365] =
    [0x3FFF, 0xB000, 0x3AAA, 0xB555] := by decide

/-! ### Events and the read port: V-TICK, V-ACC, V-READ -/

theorem test_vtick_merge : seen State.statusWord (exec .timerEvent pending) = some 0xC := by decide
theorem test_vtick_first_request : seen State.statusWord (exec .timerEvent State.reset) = some 0x8 := by decide
theorem test_vtick_quarter : seen (fun s => (s.trace, s.chI.idx, s.chQ.idx, s.tickPend))
    (exec .tick (symbolState .sine 1024 0 1024 1024)) =
    some ([.latch, .word 0xBFFF, .word 0x3FFF], 2048, 1024, false) := by decide
theorem test_vtick_qam16 : seen (fun s => (s.trace, s.chI.idx, s.chQ.idx)) (exec .tick (symbolState .qam16 6 6 1 1)) =
    some ([.latch, .word 0xBAA4, .word 0x355C], 7, 7) := by decide
/-- V-ACC: IDX_I after one tick in each listed case. -/
theorem test_vacc : [symbolState .sine 4095 0 1 1, symbolState .sine 4000 0 512 1, symbolState .sine 4095 0 4095 1,
    symbolState .qpsk 3 3 1 1, symbolState .qam16 15 15 1 1, symbolState .psk8 7 7 1 1, symbolState .bpsk 1 1 1 1,
    symbolState .dc 0 0 4095 1].map (fun s => (advancedIdx s.mode s.chI).toNat) = [0, 416, 4094, 0, 0, 0, 0, 0] := by decide
/-- V-READ: the reset state's registers. -/
theorem test_vread_reset : [0x00, 0x01, 0x02, 0x03, 0x04, 0x05, 0x06, 0x07, 0x08, 0x09, 0x0A, 0x0B, 0x0C, 0x20, 0xFF].map
    State.reset.readReg = [0, 0, 0, 0, 1, 1, 0, 0, 0, 0, 0x186A0, 0x320, 0, 0, 0] := by decide
theorem test_read_answers : seen State.rdData (exec (.read 0x0B) State.reset) = some (some 800) := by decide
theorem test_reset_clears : seen id (exec .reset (symbolState .qam16 6 6 1 1)) = some State.reset := by decide
theorem test_reset_goes_first : seen (fun s => (s.tickPend, s.inputs))
    (step { pending with inputs := [[.timerEvent, .reset, .tick], [.tick]] }) = some (false, [[.tick]]) := by decide
theorem test_idle_ticks : seen (fun s => (s.trace, s.tickAck)) (step pending) =
    some ([.latch, .word 0xB000, .word 0x3000], true) := by decide

/-! ### Witnesses: values that meet all the hypotheses of each statement that has any -/

theorem witness_DecodeEncodeRoundTrip : encode (.dc .q (-250)) = some 0x28000000FFFFFF06 := by decide
theorem witness_AcceptedWordIsItsEncoding : decode 0x28000000FFFFFF06 = .ok (.dc .q (-250)) := by rfl
/-- Words at the boundaries of the four clauses: OP = 9; FILTER with ARG = 2; MOD with ARG = 4, 7 and 8; SR with
ARG = 0, CLK_HZ and CLK_HZ + 1. -/
theorem witness_RejectCauseIsLowest : [(9, 0, 0, 0), (7, 0, 0, 2), (5, 0, 0, 4), (5, 0, 0, 7), (5, 0, 0, 8), (6, 0, 0, 0),
    (6, 0, 0, 80000000), (6, 0, 0, 80000001), (4, 1, 0, 0), (3, 1, 2 ^ 27 - 1, 0)].map (fun x => rejectedWith
    (x.1 * 2 ^ 60 + x.2.1 * 2 ^ 59 + x.2.2.1 * 2 ^ 32 + x.2.2.2)) = [some .reservedOpcode, some .reservedField,
    some .reservedSelector, some .reservedSelector, some .reservedField, some .invalidRate, none, some .invalidRate,
    some .reservedField, some .reservedField] := by decide
theorem witness_RejectCauseIsLowest_word :
    (0x5000000000000007 : CmdWord).toNat = 5 * 2 ^ 60 + 0 * 2 ^ 59 + 0 * 2 ^ 32 + 7 ∧ 0 < 2 ∧ 0 < 2 ^ 27 ∧ 7 < 2 ^ 32 := by
  decide
/-- Each clause at the ends of its range. -/
theorem witness_TextCommandsTranscribeExactly :
    ((-2 : Int) ^ 31 ≤ -2147483648 ∧ (-2147483648 : Int) < 2 ^ 31 ∧ -(2 : Int) ^ 31 ≤ 2147483647 ∧ (2147483647 : Int) < 2 ^ 31) ∧
    ((-2147483649 : Int) < -2 ^ 31 ∧ (2 : Int) ^ 31 ≤ 2147483648) ∧
    (transcribe (.dc .q (-250) 3) = .word 0x28000000FFFFFF06 ∧ (3 : Nat) ≤ 3 ∧ (-2 : Int) ^ 31 ≤ -2147483648 * 10 ^ 0 ∧
      (2147483647 : Int) * 10 ^ 0 < 2 ^ 31 ∧ 3 < 4 ∧ (-2147483649 : Int) * 10 ^ 0 < -2 ^ 31 ∧ (2 : Int) ^ 31 ≤ 2147484 * 10 ^ 3) ∧
    ((0 : Int) ≤ 4294967295 ∧ (4294967295 : Int) < 2 ^ 32 ∧ (-1 : Int) < 0 ∧ (2 : Int) ^ 32 ≤ 4294967296) := by decide
theorem witness_StepRunsDecodedCommand : let s := State.reset.withFetchWord 64 0x5000000000000001
    s.params.valid = true ∧ s.inputs = [.command 0x5000000000000001] :: [] ∧ Request.reset ∉ ([] : List Request) ∧
    decodeCommand s.params 0x5000000000000001 = .ok .modQpsk := ⟨by decide, by decide, by decide, by rfl⟩
theorem witness_StepServesEachRequest : pending.params.valid = true ∧ Request.reset ∉ [Request.tick] ∧
    ({ pending with inputs := [[.command 0, .tick]] } : State).inputs = (.command 0 :: [.tick]) :: [] ∧
    ({ pending with inputs := [[.timerEvent, .tick]] } : State).inputs = (.timerEvent :: [.tick]) :: [] ∧
    ({ pending with inputs := [[.read 1, .tick]] } : State).inputs = (.read 1 :: [.tick]) :: [] ∧
    ({ pending with inputs := [[.tick, .tick]] } : State).inputs = (.tick :: [.tick]) :: [] ∧
    ({ pending with inputs := [[]] } : State).inputs = [] :: [] ∧ pending.inputs = [] := by decide
theorem witness_ResetGoesFirst : let s : State := { pending with inputs := [[.tick, .reset]] }
    s.params.valid = true ∧ s.inputs = [.tick, .reset] :: [] ∧ Request.reset ∈ [Request.tick, .reset] := by decide
theorem witness_BothOrdersAdmitted : pending.params.valid = true ∧ Request.tick ≠ .reset ∧
    Request.command 0x5000000000000001 ≠ .reset := by decide
/-- One configuration for each of the four inequalities. -/
theorem witness_IllegalGainOrOffsetRefused :
    ({ Config.p0 with offsetI := 2046 } : Params).offsetI < ({ Config.p0 with offsetI := 2046 } : Params).gainI ∧
    4095 < ({ Config.p0 with offsetI := 2049 } : Params).offsetI + ({ Config.p0 with offsetI := 2049 } : Params).gainI ∧
    ({ Config.p0 with offsetQ := 2046 } : Params).offsetQ < ({ Config.p0 with offsetQ := 2046 } : Params).gainQ ∧
    4095 < ({ Config.p0 with offsetQ := 2049 } : Params).offsetQ + ({ Config.p0 with offsetQ := 2049 } : Params).gainQ := by
  decide
theorem witness_RejectedWordChangesOnlyStatus :
    decodeCommand State.reset.params 0x4800000000000064 = .error .reservedField := by rfl
/-- Also the witness of `StepNeverStops`. -/
theorem witness_StepKeepsInvariant : (symbolState .qam16 6 6 1 1).Inv ∧
    (seen State.tickAck (step (symbolState .qam16 6 6 1 1)) = some true) := by decide
theorem witness_ResetStateMeetsInvariant : Config.p0.valid = true := by decide
theorem witness_ResetStateValues : Config.p0.valid = true := by decide
/-- A tick is serviced while the next moment holds a mode-setting command, so the step is one before that command. -/
theorem witness_HeaderOnlyUntilModeCommand :
    let s : State := { pending with inputs := [[.tick], [.command 0x5000000000000001]] }
    s.HeaderOnly ∧
    (∀ w i, (nextRequest s.inputs).1 = .command w → decodeCommand s.params w = .ok i → setsMode i = false) ∧
    seen (fun t => (t.tickAck, t.trace)) (step s) = some (true, [.latch, .word 0xB000, .word 0x3000]) :=
  ⟨⟨by decide, rfl, rfl, rfl, 0, rfl⟩, by intro w i h; exact Request.noConfusion h, by decide⟩
theorem witness_ResetStateIsHeaderOnly : Config.p0.valid = true := by decide
theorem witness_HeaderOnlyWithoutModeCommand : Config.p0.valid = true ∧ NoModeCommand Config.p0 [[.timerEvent, .tick]] ∧
    seen State.trace (core.run 2 { State.resetFor Config.p0 with inputs := [[.timerEvent, .tick]] }) =
      some [.latch, .word 0xB000, .word 0x3000] :=
  ⟨by decide, by intro m hm w hw; simp at hm; subst hm; simp at hw, by decide⟩
theorem witness_ModeCommandZeroesIndices : setsMode .modQpsk = true ∧
    seen State.mode (exec .modQpsk (symbolState .sine 120 3 40 1)) = some .qpsk := by decide
/-- One value for each of the two parts. -/
theorem witness_ModeDependsOnlyOnCommand :
    (setsMode (.tone 5) = true ∧ seen State.mode (exec (.tone 5) State.reset) = some .sine ∧
      seen State.mode (exec (.tone 5) (symbolState .qam16 6 6 1 1)) = some .sine) ∧
    (setsMode .tick = false ∧ Instr.tick ≠ .reset ∧
      seen State.mode (exec .tick (symbolState .qam16 6 6 1 1)) = some .qam16) := by decide
/-- Also the witness of `IncrementAliases`. -/
theorem witness_IncrementIsTruncatedPhase : 1 ≤ 100000 := by decide
/-- A frequency at a boundary of each clause: 0 and Fs/2, -1 and -Fs/2, and Fs/2 itself. -/
theorem witness_IncrementInBand : (1 ≤ 2 ∧ (0 : Int) ≤ 1 ∧ 2 * (1 : Int) ≤ (2 : Nat)) ∧
    (1 ≤ 2 ∧ (-1 : Int) < 0 ∧ -((2 : Nat) : Int) ≤ 2 * (-1)) ∧ (1 ≤ 100000 ∧ 2 * (50000 : Int) = (100000 : Nat)) := by
  decide
/-- Also the witness of `ToneCommandResult`. -/
theorem witness_SineCommandResult : 1 ≤ State.reset.fsHz.toNat := by decide
theorem witness_IndexAfterManyTicks : let s : State := { symbolState .qpsk 3 3 1 1 with
      tickPend := false, inputs := tickMoments 2 }
    s.params.valid = true ∧ s.IndicesInTable ∧ s.inputs = tickMoments 2 ∧ s.tickPend = false := by decide
/-- The witness of every statement about all legal parameter sets and nothing else: `SineRomIsRoundedWave`,
`ConstellationCodes`. -/
theorem witness_SineRomIsRoundedWave : Config.p0.valid = true := by decide
theorem witness_SineRomQuarterPoints : Config.p0.valid = true ∧ Config.p0.gainI = Config.p0.gainQ ∧
    Config.p0.offsetI = Config.p0.offsetQ := by decide
/-- The last index of each mode's table. -/
theorem witness_LookupByMode : [Mode.raw, .dc, .sine, .bpsk, .qpsk, .psk8, .qam16].all (fun m =>
    decide ((symbolState m (BitVec.ofNat 12 (tableLength m - 1)) 0 1 1).chI.idx.toNat < tableLength m)) = true := by decide
/-- Both clauses at their boundary rates. -/
theorem witness_SetRateResult : (1 ≤ (1 : Word32).toNat ∧ (80000000 : Word32).toNat ≤ State.reset.params.clkHz) ∧
    ((0 : Word32).toNat = 0 ∧ State.reset.params.clkHz < (80000001 : Word32).toNat) := by decide
theorem witness_ReloadIsQuotient : Config.p0.valid = true ∧ 1 ≤ (80000000 : Word32).toNat ∧
    (80000000 : Word32).toNat ≤ Config.p0.clkHz := by decide
theorem witness_TimerEventResult : State.reset.tickPend = false ∧ pending.tickPend = true := by decide
theorem witness_TickResult : pending.tickPend = true ∧ pending.chI.idx.toNat < tableLength pending.mode := by decide
/-- Also the witness of `RequestDuringTickIsKept`. -/
theorem witness_TickNeedsPendingRequest : seen State.tickPend (exec .tick pending) = some false := by decide
theorem witness_PendingTickIsServiced : let s : State := { pending with inputs := [[.command 0, .read 1], [.timerEvent]] }
    s.Inv ∧ s.tickPend = true ∧ noReset s.inputs = true := by decide
theorem witness_StrobeCommitsBurstBefore : let s : State := { pending with trace := [.latch, .word 0xB000, .word 0x3000] }
    bursts s.trace = some [(0xB000, 0x3000)] ∧ seen (fun t => committedWords t.trace) (exec .tick s) =
      some (some (0xB000, 0x3000)) := by decide
theorem witness_ReadSeesCommandAndRepeats :
    let s : State := { State.reset with inputs := [[.command 0x5000000000000001, .read 0, .read 0]] }
    s.params.valid = true ∧ s.inputs = [[.command 0x5000000000000001, .read 0, .read 0]] ∧
    decodeCommand s.params 0x5000000000000001 = .ok .modQpsk ∧
    seen State.mode (exec .modQpsk { s with tickAck := false, rdData := none, inputs := [[.read 0, .read 0]] }) =
      some .qpsk := ⟨by decide, by decide, by rfl, by decide⟩
theorem witness_RegistersChangeOnlyByTheirWriters : seen (fun t => t.chI.idx) (exec .tick (symbolState .qam16 6 6 1 1)) =
    some 7 := by decide

end Sys2Proof.Tests
end

section
/-! The invariant of the block: what each operation does to it, and that every step keeps it. -/

namespace Sys2Proof.Machine

/-! ### Parameters and rates -/

/-- The constraints of R8 and R9 that the model checks, as inequalities. -/
theorem params_valid_iff (p : Params) : p.valid = true ↔
    (p.gainI ≤ p.offsetI ∧ p.offsetI + p.gainI ≤ 4095) ∧ (p.gainQ ≤ p.offsetQ ∧ p.offsetQ + p.gainQ ≤ 4095) ∧
      (1 ≤ p.clkHz ∧ p.clkHz < 2 ^ 32 ∧ 1 ≤ p.fsResetHz ∧ p.fsResetHz ≤ p.clkHz) ∧
      (1 ≤ p.ldacHold ∧ 1 ≤ p.tickLatency) := by
  simp [Params.valid, sineLegal, clockLegal, timingLegal, and_assoc]

theorem rateLegal_iff (clkHz : Nat) (r : Word32) : rateLegal clkHz r = true ↔ 1 ≤ r.toNat ∧ r.toNat ≤ clkHz := by
  simp [rateLegal]

theorem step_of_params_not_valid {s : State} (h : ¬ s.params.valid = true) :
    step s = .refused .invalidConfiguration := if_neg h

/-- The clock fits 32 bits (R8), so no reload count wraps (R103). -/
theorem reloadCount_toNat {clkHz : Nat} (h : clkHz < 2 ^ 32) (r : Nat) : (reloadCount clkHz r).toNat = clkHz / r :=
  Nat.mod_eq_of_lt ((Nat.div_le_self clkHz r).trans_lt h)

/-- A reload count of a legal rate lies from 1 to CLK_HZ (R26). -/
theorem reloadCount_bounds {clkHz r : Nat} (h : clkHz < 2 ^ 32) (hr : 1 ≤ r) (hclk : r ≤ clkHz) :
    1 ≤ (reloadCount clkHz r).toNat ∧ (reloadCount clkHz r).toNat ≤ clkHz := by
  rw [reloadCount_toNat h]
  exact ⟨Nat.div_pos hclk hr, Nat.div_le_self clkHz r⟩

/-- A legal rate and its reload count meet R26. -/
theorem ratesLegal_of_rate {s : State} (hp : s.params.valid = true) (hlow : 1 ≤ s.fsHz.toNat)
    (hhigh : s.fsHz.toNat ≤ s.params.clkHz) (hreload : s.reload = reloadCount s.params.clkHz s.fsHz.toNat) :
    s.RatesLegal := by
  obtain ⟨-, -, ⟨-, hclk, -⟩, -⟩ := (params_valid_iff _).mp hp
  obtain ⟨hone, hle⟩ := reloadCount_bounds hclk hlow hhigh
  exact ⟨hlow, hhigh, hreload, hreload ▸ hone, hreload ▸ hle⟩

/-! ### STATUS -/

/-- `State.CausesLegal`, of STATUS alone. -/
def Status.CausesLegal (st : Status) : Prop :=
  st.errCause.toNat ≤ 4 ∧ st.warnCause.toNat ≤ 3 ∧
    (st.cmdErr = true ↔ st.errCause ≠ 0) ∧ (st.rangeWarn = true ↔ st.warnCause ≠ 0)

theorem State.causesLegal_iff (s : State) : s.CausesLegal ↔ s.status.CausesLegal := Iff.rfl

theorem Status.causesLegal_reset : Status.reset.CausesLegal := by
  unfold Status.CausesLegal
  decide

theorem rejectCode_legal (c : RejectCause) : (rejectCode c).toNat ≤ 4 ∧ rejectCode c ≠ 0 := by
  cases c <;> decide

theorem warnCode_legal (c : WarnCause) : (warnCode c).toNat ≤ 3 ∧ warnCode c ≠ 0 := by
  cases c <;> decide

theorem Status.CausesLegal.reject {st : Status} (h : st.CausesLegal) (c : RejectCause) :
    (st.reject c).CausesLegal := by
  obtain ⟨-, hwarn, -, hrange⟩ := h
  obtain ⟨hle, hne⟩ := rejectCode_legal c
  exact ⟨hle, hwarn, iff_of_true rfl hne, hrange⟩

theorem Status.CausesLegal.warn {st : Status} (h : st.CausesLegal) (c : WarnCause) : (st.warn c).CausesLegal := by
  obtain ⟨herr, -, hcmd, -⟩ := h
  obtain ⟨hle, hne⟩ := warnCode_legal c
  exact ⟨herr, hle, hcmd, iff_of_true rfl hne⟩

/-- A bit and its cause are cleared together (R98). -/
theorem Status.CausesLegal.clear {st : Status} (h : st.CausesLegal) (m : BitVec 3) : (st.clear m).CausesLegal := by
  obtain ⟨herr, hwarn, hcmd, hrange⟩ := h
  dsimp only [Status.CausesLegal, Status.clear]
  refine ⟨?_, ?_, ?_, ?_⟩
  · split
    · exact Nat.zero_le 4
    · exact herr
  · split
    · exact Nat.zero_le 3
    · exact hwarn
  · split
    · simp
    · exact hcmd
  · split
    · simp
    · exact hrange

/-! ### The trace -/

/-- The header of a transport word is its channel's (R82). -/
theorem wordHeader_dacWord (c : Channel) (v : Code) : wordHeader (dacWord c v) = (header c).extractLsb' 12 4 := by
  ext k hk
  simp [wordHeader, dacWord]

/-- A burst after a trace of bursts is one burst more (R88). -/
theorem bursts_append_burst {trace : List TransportEvent} {bs : List (DacWord × DacWord)}
    (h : bursts trace = some bs) (vI vQ : Code) :
    bursts (trace ++ [.latch, .word (dacWord .q vQ), .word (dacWord .i vI)]) =
      some (bs ++ [(dacWord .q vQ, dacWord .i vI)]) := by
  induction trace using bursts.induct generalizing bs with
  | case1 =>
    obtain rfl : [] = bs := Option.some.inj h
    simp [bursts, wordHeader_dacWord, header]
  | case2 q i later hheaders ih =>
    rw [bursts, if_pos hheaders] at h
    obtain ⟨bs', hbs', rfl⟩ := Option.map_eq_some_iff.mp h
    rw [List.cons_append, List.cons_append, List.cons_append, bursts, if_pos hheaders, ih hbs']
    rfl
  | case3 q i later hheaders =>
    rw [bursts, if_neg hheaders] at h
    cases h
  | case4 trace hnil hburst =>
    rw [bursts] at h
    · cases h
    · exact hnil
    · exact hburst

/-! ### The part of the invariant that no mode and no index enters -/

/-- The invariant without its two conjuncts about MODE, the indices and the increments: what a mode-setting command
keeps at every moment of its work. -/
def State.ModeFreeInv (s : State) : Prop :=
  s.params.valid = true ∧ s.RatesLegal ∧ s.CausesLegal ∧ (bursts s.trace).isSome = true

theorem State.inv_iff (s : State) : s.Inv ↔ s.ModeFreeInv ∧ s.IndicesInTable ∧ s.SymbolsShareCounter := by
  unfold State.ModeFreeInv
  tauto

theorem State.Inv.modeFree {s : State} (h : s.Inv) : s.ModeFreeInv := ((State.inv_iff s).mp h).1

theorem State.ModeFreeInv.causesLegal {s : State} (h : s.ModeFreeInv) : s.status.CausesLegal := by
  obtain ⟨-, -, hcauses, -⟩ := h
  exact (State.causesLegal_iff s).mp hcauses

theorem State.ModeFreeInv.setChan {s : State} (h : s.ModeFreeInv) (c : Channel) (r : ChannelRegs) :
    (s.setChan c r).ModeFreeInv := by
  cases c <;> exact h

theorem State.ModeFreeInv.withStatus {s : State} (h : s.ModeFreeInv) {st : Status} (hst : st.CausesLegal) :
    State.ModeFreeInv { s with status := st } := by
  obtain ⟨hparams, hrates, -, htrace⟩ := h
  exact ⟨hparams, hrates, (State.causesLegal_iff _).mpr hst, htrace⟩

theorem State.ModeFreeInv.warnIf {s : State} (h : s.ModeFreeInv) (b : Bool) (c : WarnCause) :
    (s.warnIf b c).ModeFreeInv := by
  cases b with
  | false => exact h
  | true => exact h.withStatus (h.causesLegal.warn c)

/-- Entering a mode restores the invariant: both indices are 0 (R91), and where the mode is a constellation both
increments must be 1 (R95). -/
theorem State.ModeFreeInv.enterMode {s : State} (h : s.ModeFreeInv) {m : Mode}
    (hinc : isConstellation m = true → s.chI.inc = 1 ∧ s.chQ.inc = 1) : (s.enterMode m).Inv := by
  have hindex : (0 : Code).toNat < tableLength m := (tableLength_bounds m).1
  refine (State.inv_iff _).mpr ⟨h, ⟨hindex, hindex⟩, fun hm => ?_⟩
  obtain ⟨hincI, hincQ⟩ := hinc hm
  exact ⟨hincI, hincQ, rfl⟩

theorem State.ModeFreeInv.enterConstellation {s : State} (h : s.ModeFreeInv) (m : Mode) :
    (s.enterConstellation m).Inv :=
  ((h.setChan .i _).setChan .q _).enterMode fun _ => ⟨rfl, rfl⟩

/-! ### The invariant under the operations that keep MODE -/

theorem State.Inv.beginStep {s : State} (h : s.Inv) (rest : List (List Request)) : (s.beginStep rest).Inv := h

theorem State.Inv.withStatus {s : State} (h : s.Inv) {st : Status} (hst : st.CausesLegal) :
    State.Inv { s with status := st } := by
  obtain ⟨hfree, hindices, hcounter⟩ := (State.inv_iff s).mp h
  exact (State.inv_iff _).mpr ⟨hfree.withStatus hst, hindices, hcounter⟩

theorem State.Inv.causesLegal {s : State} (h : s.Inv) : s.status.CausesLegal :=
  h.modeFree.causesLegal

theorem State.Inv.cmdReject {s : State} (h : s.Inv) (c : RejectCause) : (s.cmdReject c).Inv :=
  h.withStatus (h.causesLegal.reject c)

theorem State.Inv.withRate {s : State} (h : s.Inv) {r : Word32} (hr : rateLegal s.params.clkHz r = true) :
    State.Inv { s with fsHz := r, reload := reloadCount s.params.clkHz r.toNat } := by
  obtain ⟨hparams, hindices, -, hcounter, hcauses, htrace⟩ := h
  obtain ⟨hlow, hhigh⟩ := (rateLegal_iff _ _).mp hr
  exact ⟨hparams, hindices, ratesLegal_of_rate hparams hlow hhigh rfl, hcounter, hcauses, htrace⟩

theorem State.Inv.emitBurst {s : State} (h : s.Inv) (vI vQ : Code) : (s.emitBurst vI vQ).Inv := by
  obtain ⟨hparams, hindices, hrates, hcounter, hcauses, htrace⟩ := h
  obtain ⟨bs, hbs⟩ := Option.isSome_iff_exists.mp htrace
  rw [emitBurst_eq]
  exact ⟨hparams, hindices, hrates, hcounter, hcauses, Option.isSome_iff_exists.mpr ⟨_, bursts_append_burst hbs vI vQ⟩⟩

/-- Both channels advance together: an advance of one alone would break the shared counter (R25, R67). -/
theorem State.Inv.advanceBoth {s : State} (h : s.Inv) : ((s.advance .i).advance .q).Inv := by
  obtain ⟨hfree, -, hcounter⟩ := (State.inv_iff s).mp h
  refine (State.inv_iff _).mpr
    ⟨(hfree.setChan .i _).setChan .q _, ⟨advancedIdx_lt s.mode s.chI, advancedIdx_lt s.mode s.chQ⟩, fun hm => ?_⟩
  obtain ⟨hincI, hincQ, hidx⟩ := hcounter hm
  refine ⟨hincI, hincQ, ?_⟩
  simp [advancedIdx, hincI, hincQ, hidx]

/-- The reset state meets the invariant, whatever is offered (R35). -/
theorem State.resetFor_inv {p : Params} (hp : p.valid = true) (inputs : List (List Request)) :
    State.Inv { State.resetFor p with inputs := inputs } := by
  obtain ⟨-, -, ⟨-, hclk, hlow, hhigh⟩, -⟩ := (params_valid_iff p).mp hp
  have hrate : (BitVec.ofNat 32 p.fsResetHz).toNat = p.fsResetHz := Nat.mod_eq_of_lt (hhigh.trans_lt hclk)
  have hrates : State.RatesLegal { State.resetFor p with inputs := inputs } :=
    ratesLegal_of_rate hp (hlow.trans_eq hrate.symm) (hrate.trans_le hhigh)
      (congrArg (reloadCount p.clkHz) hrate.symm)
  exact ⟨hp, ⟨Nat.zero_lt_one, Nat.zero_lt_one⟩, hrates, nofun, Status.causesLegal_reset, rfl⟩

/-! ### Every instruction, every request and every step -/

/-- What a SINE that gives a next state has done (R68). -/
theorem execSine_next {c : Channel} {f : Word32} {s t : State} (h : execSine c f s = .next t) :
    ∃ k, s.toneInc (s32 f) = some k ∧ t = ((s.warnFreq (s32 f)).setInc c k).enterMode .sine := by
  unfold execSine at h
  split at h
  · next k hk =>
    cases h
    exact ⟨k, hk, rfl⟩
  · cases h

/-- What a TONE that gives a next state has done (R69). -/
theorem execTone_next {f : Word32} {s t : State} (h : execTone f s = .next t) :
    ∃ k, s.toneInc (s32 f) = some k ∧
      t = (((s.warnFreq (s32 f)).setInc .i k).setInc .q k).enterMode .sine := by
  unfold execTone at h
  split at h
  · next k hk =>
    cases h
    exact ⟨k, hk, rfl⟩
  · cases h

theorem execSr_keeps_inv {r : Word32} {s t : State} (hs : s.Inv) (h : execSr r s = .next t) : t.Inv := by
  obtain rfl := Host.Outcome.next.inj h
  split
  · next hr => exact hs.withRate hr
  · exact hs.cmdReject .invalidRate

theorem execTick_keeps_inv {s t : State} (hs : s.Inv) (h : execTick s = .next t) : t.Inv := by
  obtain ⟨-, v, -, rfl⟩ := execTick_next h
  exact (hs.emitBurst v.1 v.2).advanceBoth

theorem exec_keeps_inv {i : Instr} {s t : State} (hs : s.Inv) (h : exec i s = .next t) : t.Inv := by
  have hfree := hs.modeFree
  cases i with
  | raw c v =>
    obtain rfl := Host.Outcome.next.inj h
    exact ((hfree.warnIf _ _).setChan c _).enterMode nofun
  | dc c mv =>
    obtain rfl := Host.Outcome.next.inj h
    exact ((hfree.warnIf _ _).setChan c _).enterMode nofun
  | sine c f =>
    obtain ⟨k, -, rfl⟩ := execSine_next h
    exact ((hfree.warnIf _ _).setChan c _).enterMode nofun
  | tone f =>
    obtain ⟨k, -, rfl⟩ := execTone_next h
    exact (((hfree.warnIf _ _).setChan .i _).setChan .q _).enterMode nofun
  | modBpsk =>
    obtain rfl := Host.Outcome.next.inj h
    exact hfree.enterConstellation .bpsk
  | modQpsk =>
    obtain rfl := Host.Outcome.next.inj h
    exact hfree.enterConstellation .qpsk
  | mod8psk =>
    obtain rfl := Host.Outcome.next.inj h
    exact hfree.enterConstellation .psk8
  | mod16qam =>
    obtain rfl := Host.Outcome.next.inj h
    exact hfree.enterConstellation .qam16
  | sr r => exact execSr_keeps_inv hs h
  | filterOff =>
    obtain rfl := Host.Outcome.next.inj h
    exact hs
  | filterRrc =>
    obtain rfl := Host.Outcome.next.inj h
    exact hs
  | clrStatus m =>
    obtain rfl := Host.Outcome.next.inj h
    exact hs.withStatus (hs.causesLegal.clear m)
  | timerEvent =>
    obtain rfl := Host.Outcome.next.inj h
    exact hs.withStatus (st := s.status.timer s.tickPend) hs.causesLegal
  | tick => exact execTick_keeps_inv hs h
  | read a =>
    obtain rfl := Host.Outcome.next.inj h
    exact hs
  | reset =>
    obtain rfl := Host.Outcome.next.inj h
    obtain ⟨hparams, -⟩ := hfree
    exact State.resetFor_inv hparams s.inputs

/-- A served command word was run, or its rejection recorded (R52, R107). -/
theorem serveCommand_next {w : CmdWord} {s t : State} (h : serveCommand w s = .next t) :
    (∃ i, decodeCommand s.params w = .ok i ∧ exec i s = .next t) ∨
      ∃ c, decodeCommand s.params w = .error c ∧ t = s.cmdReject c := by
  unfold serveCommand at h
  split at h
  · next i hi => exact .inl ⟨i, hi, h⟩
  · next c hc =>
    cases h
    exact .inr ⟨c, hc, rfl⟩

theorem serve_keeps_inv {r : Request} {s t : State} (hs : s.Inv) (h : serve r s = .next t) : t.Inv := by
  cases r with
  | command w =>
    obtain ⟨i, -, hexec⟩ | ⟨c, -, rfl⟩ := serveCommand_next h
    · exact exec_keeps_inv hs hexec
    · exact hs.cmdReject c
  | timerEvent => exact exec_keeps_inv (i := .timerEvent) hs h
  | tick =>
    by_cases hpend : s.tickPend = true
    · exact execTick_keeps_inv hs ((if_pos hpend).symm.trans h)
    · obtain rfl := Host.Outcome.next.inj ((if_neg hpend).symm.trans h)
      exact hs
  | read a => exact exec_keeps_inv (i := .read a) hs h
  | reset => exact exec_keeps_inv (i := .reset) hs h

/-- Settles O13: the start of a step touches no field of the invariant, and whatever request is served keeps it. -/
theorem stepKeepsInvariant : Obligations.StepKeepsInvariant := by
  intro s t hs h
  obtain ⟨-, hserve⟩ := step_next h
  exact serve_keeps_inv (hs.beginStep _) hserve

/-- Settles O10: each broken inequality contradicts one clause of R9 in `Params.valid`. -/
theorem illegalGainOrOffsetRefused : Obligations.IllegalGainOrOffsetRefused := by
  intro s hbroken
  refine step_of_params_not_valid fun hvalid => ?_
  obtain ⟨hI, hQ, -, -⟩ := (params_valid_iff _).mp hvalid
  omega

/-- Settles O14: FS_RESET_HZ fits FS_HZ and its reload count is legal; the other fields meet the invariant as constants. -/
theorem resetStateMeetsInvariant : Obligations.ResetStateMeetsInvariant :=
  fun _ inputs hp => State.resetFor_inv hp inputs

end Sys2Proof.Machine
end

section
/-! The registers, flags and outputs: which instructions write each, the word each address reads, and their values after
reset. -/

namespace Sys2Proof.Machine

/-! ### What the updates of STATUS leave unchanged -/

@[simp] theorem Status.reject_rangeWarn (c : RejectCause) (st : Status) : (st.reject c).rangeWarn = st.rangeWarn := rfl
@[simp] theorem Status.reject_warnCause (c : RejectCause) (st : Status) : (st.reject c).warnCause = st.warnCause := rfl
@[simp] theorem Status.reject_overrun (c : RejectCause) (st : Status) : (st.reject c).overrun = st.overrun := rfl
@[simp] theorem Status.warn_cmdErr (c : WarnCause) (st : Status) : (st.warn c).cmdErr = st.cmdErr := rfl
@[simp] theorem Status.warn_errCause (c : WarnCause) (st : Status) : (st.warn c).errCause = st.errCause := rfl
@[simp] theorem Status.warn_overrun (c : WarnCause) (st : Status) : (st.warn c).overrun = st.overrun := rfl
@[simp] theorem Status.timer_cmdErr (b : Bool) (st : Status) : (st.timer b).cmdErr = st.cmdErr := rfl
@[simp] theorem Status.timer_errCause (b : Bool) (st : Status) : (st.timer b).errCause = st.errCause := rfl
@[simp] theorem Status.timer_rangeWarn (b : Bool) (st : Status) : (st.timer b).rangeWarn = st.rangeWarn := rfl
@[simp] theorem Status.timer_warnCause (b : Bool) (st : Status) : (st.timer b).warnCause = st.warnCause := rfl

/-! ### The writers of each register -/

/-- Entering a constellation writes MODE, both indices and both increments, and nothing else (R95). -/
theorem enterConstellation_eq (m : Mode) (s : State) : s.enterConstellation m =
    { s with mode := m, chI := { s.chI with idx := 0, inc := 1 }, chQ := { s.chQ with idx := 0, inc := 1 } } := rfl

/-- Settles O49, instruction by instruction: the next state is a composition of named updates, and a register that none
of them writes is as before. The channel commands are split by channel, SR by whether its rate is legal. -/
theorem registersChangeOnlyByTheirWriters : Obligations.RegistersChangeOnlyByTheirWriters := by
  intro i s t h
  cases i with
  | raw c v | dc c v =>
    obtain rfl := Host.Outcome.next.inj h
    cases c <;> simp [setsMode, apply_ite]
  | sine c f =>
    obtain ⟨k, -, rfl⟩ := execSine_next h
    cases c <;> simp [setsMode, apply_ite, State.warnFreq]
  | tone f =>
    obtain ⟨k, -, rfl⟩ := execTone_next h
    simp [setsMode, apply_ite, State.warnFreq]
  | modBpsk | modQpsk | mod8psk | mod16qam =>
    obtain rfl := Host.Outcome.next.inj h
    simp [setsMode, enterConstellation_eq]
  | sr r =>
    obtain rfl := Host.Outcome.next.inj h
    split <;> simp
  | filterOff | filterRrc | clrStatus m | timerEvent | read a =>
    obtain rfl := Host.Outcome.next.inj h
    simp
  | tick =>
    obtain ⟨-, v, -, rfl⟩ := execTick_next h
    simp [emitBurst_eq]
  | reset =>
    obtain rfl := Host.Outcome.next.inj h
    exact ⟨rfl, rfl, fun hne => absurd rfl hne⟩

/-! ### The STATUS word -/

/-- The word in front is the high part of a concatenation. -/
theorem toNat_append_eq_add {n m : Nat} (x : BitVec n) (y : BitVec m) :
    (x ++ y).toNat = 2 ^ m * x.toNat + y.toNat := by
  rw [BitVec.toNat_append, ← Nat.shiftLeft_add_eq_or_of_lt y.isLt, Nat.shiftLeft_eq, Nat.mul_comm]

/-- The layout of R27, with TICK_PEND in bit 3. -/
theorem Status.word_toNat (tickPend : Bool) (st : Status) : (st.word tickPend).toNat =
    st.cmdErr.toNat + 2 * st.rangeWarn.toNat + 4 * st.overrun.toNat + 8 * tickPend.toNat +
      16 * st.errCause.toNat + 256 * st.warnCause.toNat := by
  simp only [Status.word, toNat_append_eq_add, BitVec.toNat_ofBool, BitVec.ofNat_eq_ofNat, BitVec.toNat_ofNat]
  omega

/-- Settles O46: a concatenation is a sum weighted by the places of its parts. -/
theorem statusWordLayout : Obligations.StatusWordLayout :=
  fun s => s.status.word_toNat s.tickPend

/-! ### The register map -/

/-- The registers in the order of their addresses, 0x00 to 0x0B (R19). -/
def State.registerMap (s : State) : List Word32 :=
  [(modeCode s.mode).setWidth 32, s.statusWord, s.chI.idx.setWidth 32, s.chQ.idx.setWidth 32,
    s.chI.inc.setWidth 32, s.chQ.inc.setWidth 32, s.chI.dc.setWidth 32, s.chQ.dc.setWidth 32,
    s.chI.raw.setWidth 32, s.chQ.raw.setWidth 32, s.fsHz, s.reload]

/-- A read answers the entry of the register map, and 0 above it (R37, R105). -/
theorem State.readReg_eq_registerMap (s : State) (a : RegAddr) : s.readReg a = s.registerMap.getD a.toNat 0 := by
  obtain hmapped | hunmapped : a.toNat < 12 ∨ 12 ≤ a.toNat := by omega
  · unfold State.readReg
    generalize a.toNat = n at hmapped ⊢
    interval_cases n <;> rfl
  · rw [List.getD_eq_default _ _ hunmapped]
    unfold State.readReg
    split
    case h_13 => rfl
    all_goals omega

/-- Settles O47: the registers as numbers are those of the register map, since widening keeps a register's value. -/
theorem readResult : Obligations.ReadResult := by
  intro a s mode regs
  have hmode : mode = (modeCode s.mode).toNat := by
    unfold mode
    cases s.mode <;> rfl
  have hregs : regs = s.registerMap.map BitVec.toNat := by
    simp [-BitVec.toNat_setWidth, regs, hmode, State.registerMap, BitVec.toNat_setWidth_of_le]
  have hread : s.readReg a = BitVec.ofNat 32 (regs.getD a.toNat (0 : Word32).toNat) := by
    rw [hregs, List.getD_map, BitVec.ofNat_toNat, BitVec.setWidth_eq, State.readReg_eq_registerMap]
  exact congrArg (fun v => Host.Outcome.next { s with rdData := some v }) hread

/-! ### The registers after reset -/

/-- The transport word of the code 0 is the header alone (R83, R126). -/
theorem dacWord_zero (c : Channel) : dacWord c 0#12 = header c := by
  cases c <;> rfl

/-- Settles O15: FS_RESET_HZ and its reload count fit their registers, as the clock does (R8); the codes of the first tick
are the RAW registers, both 0. -/
theorem resetStateValues : Obligations.ResetStateValues := by
  intro p hp
  obtain ⟨-, -, ⟨-, hclk, -, hrate⟩, -⟩ := (params_valid_iff p).mp hp
  have hstatus : (State.resetFor p).statusWord = 0 :=
    BitVec.eq_of_toNat_eq (Status.word_toNat false Status.reset)
  refine ⟨rfl, rfl, rfl, hstatus, rfl, rfl, Nat.mod_eq_of_lt (hrate.trans_lt hclk),
    reloadCount_toNat hclk p.fsResetHz, rfl, _, rfl, ?_⟩
  simp [emitBurst_eq, State.resetFor, ChannelRegs.reset, dacWord_zero, header]

end Sys2Proof.Machine
end

section
/-! The order of steps: which request a step takes, on which state it is served, and what a read shows of the command
before it. -/

namespace Sys2Proof.Machine

/-! ### The request a step takes -/

theorem leftOver_eq_ite (rs : List Request) (later : List (List Request)) :
    leftOver rs later = if rs = [] then later else rs :: later := by
  simp [leftOver]

/-- In a moment without a reset the first request is taken, and the others stay offered (R45, R115). -/
theorem nextRequest_of_no_reset {r : Request} {rs : List Request} (later : List (List Request)) (hr : r ≠ .reset)
    (hrs : Request.reset ∉ rs) :
    nextRequest ((r :: rs) :: later) = (r, if rs = [] then later else rs :: later) := by
  have hmoment : Request.reset ∉ r :: rs := List.not_mem_cons_of_ne_of_not_mem hr.symm hrs
  simp only [nextRequest, if_neg hmoment, leftOver_eq_ite]

/-! ### The step on that request -/

/-- Under legal parameters a step serves the request it takes, once the output pulses are over (R44). -/
theorem step_eq_serve {s : State} {r : Request} {rest : List (List Request)} (hvalid : s.params.valid = true)
    (hnext : nextRequest s.inputs = (r, rest)) :
    step s = serve r { s with tickAck := false, rdData := none, inputs := rest } := by
  simp only [step, if_pos hvalid, hnext, State.beginStep]

/-- A step on a moment without a reset serves the first request of the moment. -/
theorem step_eq_serve_head {s : State} {r : Request} {rs : List Request} {later : List (List Request)}
    (hvalid : s.params.valid = true) (hinputs : s.inputs = (r :: rs) :: later) (hr : r ≠ .reset)
    (hrs : Request.reset ∉ rs) :
    step s = serve r { s with tickAck := false, rdData := none, inputs := if rs = [] then later else rs :: later } :=
  step_eq_serve hvalid (hinputs ▸ nextRequest_of_no_reset later hr hrs)

/-- Settles O7: an offered request is the head of its moment; a moment without requests, or no moment, gives the
dispatcher the turn. -/
theorem stepServesEachRequest : Obligations.StepServesEachRequest := by
  intro s rs later hvalid hrs s' idle
  refine ⟨fun w h => ?command, fun h => ?timerEvent, fun a h => ?read, fun h => ?tick, fun h => ?emptyMoment,
    fun h hlater => ?noMoment⟩
  case command | timerEvent | read | tick => exact step_eq_serve_head hvalid h nofun hrs
  case emptyMoment => exact step_eq_serve hvalid (r := .tick) (h ▸ rfl)
  case noMoment => exact step_eq_serve hvalid (r := .tick) (by rw [h, hlater]; rfl)

/-- An accepted command word is served by running its instruction (R52). -/
theorem serveCommand_of_decode_ok {s : State} {w : CmdWord} {i : Instr} (h : decodeCommand s.params w = .ok i) :
    serveCommand w s = exec i s := by
  simp only [serveCommand, h]

/-- Settles O6: the step serves the word (O7), and serving an accepted word runs what it decodes to. -/
theorem stepRunsDecodedCommand : Obligations.StepRunsDecodedCommand := by
  intro s w i rs later hvalid hinputs hrs hdecode
  obtain ⟨hcommand, -⟩ := stepServesEachRequest s rs later hvalid hrs
  exact (hcommand w hinputs).trans (serveCommand_of_decode_ok hdecode)

/-- Of two requests other than a reset the one offered first is served, with the second still offered. -/
theorem step_of_two_ready {s : State} {a b : Request} (hvalid : s.params.valid = true) (ha : a ≠ .reset)
    (hb : b ≠ .reset) :
    step { s with inputs := [[a, b]] } = serve a { s with tickAck := false, rdData := none, inputs := [[b]] } := by
  have hnext : nextRequest [[a, b]] = (a, [[b]]) :=
    nextRequest_of_no_reset [] ha (List.mem_singleton.not.mpr hb.symm)
  exact step_eq_serve (s := { s with inputs := [[a, b]] }) hvalid hnext

/-- Settles O9: the model serves the requests in the order offered, and both orders can be offered. -/
theorem bothOrdersAdmitted : Obligations.BothOrdersAdmitted :=
  fun _ _ _ hvalid ha hb => ⟨step_of_two_ready hvalid ha hb, step_of_two_ready hvalid hb ha⟩

/-! ### Reads after a command -/

/-- A step on a read answers the register as it stands, and changes no register (R43, R105). -/
theorem step_read {s : State} {a : RegAddr} {rs : List Request} {later : List (List Request)}
    (hvalid : s.params.valid = true) (hinputs : s.inputs = (.read a :: rs) :: later) (hrs : Request.reset ∉ rs) :
    step s = .next { s with
      tickAck := false, rdData := some (s.readReg a), inputs := if rs = [] then later else rs :: later } := by
  obtain ⟨-, -, hread, -⟩ := stepServesEachRequest s rs later hvalid hrs
  exact hread a hinputs

/-- Settles O48: the command leaves the parameters and the offered reads as they were (O49), so the two steps after it
are reads, and the second starts from the registers the first left. -/
theorem readSeesCommandAndRepeats : Obligations.ReadSeesCommandAndRepeats := by
  intro s u w i a hvalid hinputs hdecode hexec
  obtain ⟨hparams, hreads, -⟩ := registersChangeOnlyByTheirWriters i _ u hexec
  have huvalid : u.params.valid = true := hparams ▸ hvalid
  have hcommand : step s = .next u :=
    (stepRunsDecodedCommand s w i [.read a, .read a] [] hvalid hinputs (by simp) hdecode).trans hexec
  have hfirst : step u =
      .next { u with tickAck := false, rdData := some (u.readReg a), inputs := [[.read a]] } :=
    step_read huvalid hreads (by simp)
  have hsecond : step { u with tickAck := false, rdData := some (u.readReg a), inputs := [[.read a]] } =
      .next { u with tickAck := false, rdData := some (u.readReg a), inputs := [] } :=
    step_read (s := { u with tickAck := false, rdData := some (u.readReg a), inputs := [[.read a]] }) huvalid rfl
      List.not_mem_nil
  constructor
  · rw [core_run_succ 1 hcommand, core_run_succ 0 hfirst, core_run_zero]
  · rw [core_run_succ 2 hcommand, core_run_succ 1 hfirst, core_run_succ 0 hsecond, core_run_zero]

end Sys2Proof.Machine
end

section
/-! Command words: the fields of a word as numbers, which words the decoder rejects and why, the round trips between
instructions and their words, and the words of the text commands. -/

namespace Sys2Proof

open Machine (toNat_append_eq_add rateLegal_iff)
open Laws (commandWord_fields)

/-! ### The fields of a word -/

/-- The fields of R51 as digits: CH and OP are the bits above bit 58. -/
theorem fields_toNat (w : CmdWord) : (opField w).toNat = w.toNat / 2 ^ 60 ∧
    (chField w).toNat = w.toNat / 2 ^ 59 % 2 ∧ (rsvField w).toNat = w.toNat / 2 ^ 32 % 2 ^ 27 ∧
    (argField w).toNat = w.toNat % 2 ^ 32 := by
  simp only [opField, chField, rsvField, argField, BitVec.extractLsb'_toNat, Nat.shiftRight_eq_div_pow, Nat.pow_zero,
    Nat.div_one, and_true]
  omega

/-- A sum of numbers in the fields' ranges, weighted by the fields' places (R51), gives back the fields. -/
theorem fields_of_toNat {w : CmdWord} {op ch rsv arg : Nat}
    (hw : w.toNat = op * 2 ^ 60 + ch * 2 ^ 59 + rsv * 2 ^ 32 + arg) (hch : ch < 2) (hrsv : rsv < 2 ^ 27)
    (harg : arg < 2 ^ 32) :
    (opField w).toNat = op ∧ (chField w).toNat = ch ∧ (rsvField w).toNat = rsv ∧ (argField w).toNat = arg := by
  have h := fields_toNat w
  omega

theorem commandWord_toNat (op : BitVec 4) (ch : BitVec 1) (arg : Word32) :
    (commandWord op ch arg).toNat = op.toNat * 2 ^ 60 + ch.toNat * 2 ^ 59 + arg.toNat := by
  simp only [commandWord, toNat_append_eq_add, BitVec.ofNat_eq_ofNat, BitVec.toNat_ofNat]
  omega

/-- A word with RSV = 0 is put together from its other fields. -/
theorem commandWord_of_fields {w : CmdWord} (h : (rsvField w).toNat = 0) :
    commandWord (opField w) (chField w) (argField w) = w := by
  have hf := fields_toNat w
  apply BitVec.eq_of_toNat_eq
  rw [commandWord_toNat]
  omega

/-- The bits of a word from bit `k` up are 0 exactly where the word is below `2 ^ k`. -/
theorem extractLsb'_ne_zero_iff {m k n : Nat} (x : BitVec m) (hm : m ≤ k + n) :
    x.extractLsb' k n ≠ 0 ↔ 2 ^ k ≤ x.toNat := by
  have hx : x.toNat / 2 ^ k < 2 ^ n :=
    Nat.div_lt_of_lt_mul (x.isLt.trans_le (Nat.pow_add 2 k n ▸ Nat.pow_le_pow_right two_pos hm))
  rw [Ne, ← BitVec.toNat_inj, BitVec.extractLsb'_toNat, Nat.shiftRight_eq_div_pow, Nat.mod_eq_of_lt hx]
  simp [Nat.div_eq_zero_iff]

theorem channelOf_channelBit (c : Channel) : channelOf (channelBit c) = c := by
  cases c <;> rfl

theorem channelBit_channelOf (b : BitVec 1) : channelBit (channelOf b) = b := by
  revert b
  decide

/-! ### Rejected words -/

/-- R58's cause 2, on the fields as numbers: a field that the opcode does not use is not 0. -/
abbrev ReservedFieldSet (op ch rsv arg : Nat) : Prop :=
  rsv ≠ 0 ∨ (4 ≤ op ∧ ch = 1) ∨ (op = 5 ∧ 8 ≤ arg) ∨ (op = 7 ∧ 2 ≤ arg) ∨ (op = 8 ∧ 8 ≤ arg)

/-- The checks of R57 on the fields as numbers, the five of them that record cause 2 taken together. -/
theorem firstReject_eq (w : CmdWord) : firstReject w =
    if ¬ (1 ≤ (opField w).toNat ∧ (opField w).toNat ≤ 8) then some .reservedOpcode
    else if ReservedFieldSet (opField w).toNat (chField w).toNat (rsvField w).toNat (argField w).toNat then
      some .reservedField
    else if (opField w).toNat = 5 ∧ 4 ≤ (argField w).toNat % 8 then some .reservedSelector
    else none := by
  have hrsv : rsvField w ≠ 0 ↔ (rsvField w).toNat ≠ 0 := by bv_omega
  have hch : chField w ≠ 0 ↔ (chField w).toNat = 1 := by bv_omega
  have harg3 := extractLsb'_ne_zero_iff (k := 3) (n := 29) (argField w) le_rfl
  have harg1 := extractLsb'_ne_zero_iff (k := 1) (n := 31) (argField w) le_rfl
  have hsel : ((argField w).extractLsb' 0 3).toNat = (argField w).toNat % 8 := by simp
  simp only [firstReject, ReservedFieldSet, hrsv, hch, harg3, harg1, hsel, ite_or, Nat.reducePow]

/-- The words that R57's checks pass, by their fields as numbers. -/
theorem firstReject_eq_none_iff (w : CmdWord) : firstReject w = none ↔
    (1 ≤ (opField w).toNat ∧ (opField w).toNat ≤ 8) ∧
    ¬ ReservedFieldSet (opField w).toNat (chField w).toNat (rsvField w).toNat (argField w).toNat ∧
    ¬ ((opField w).toNat = 5 ∧ 4 ≤ (argField w).toNat % 8) := by
  rw [firstReject_eq]
  split_ifs <;> simp_all

/-- A word built from an opcode and operands that R57's checks pass is accepted as what its opcode names. -/
theorem decode_commandWord {op : BitVec 4} {ch : BitVec 1} {arg : Word32} {i : Instr}
    (hop : 1 ≤ op.toNat ∧ op.toNat ≤ 8) (hfields : ¬ ReservedFieldSet op.toNat ch.toNat 0 arg.toNat)
    (hsel : ¬ (op.toNat = 5 ∧ 4 ≤ arg.toNat % 8)) (hi : assemble (commandWord op ch arg) = some i) :
    decode (commandWord op ch arg) = .ok i := by
  obtain ⟨ho, hc, hr, ha⟩ := commandWord_fields op ch arg
  have haccept : firstReject (commandWord op ch arg) = none := by
    rw [firstReject_eq_none_iff, ho, hc, hr, ha]
    exact ⟨hop, hfields, hsel⟩
  simp only [decode, haccept, hi]

/-! ### The round trips -/

/-- Settles O1: R57's checks pass the word of every instruction, and its opcode and operands name the instruction. -/
theorem decodeEncodeRoundTrip : Obligations.DecodeEncodeRoundTrip := by
  intro i w h
  cases i with
  | raw | dc | sine | tone | sr =>
    obtain rfl := Option.some.inj h
    refine decode_commandWord (by decide) (by simp) (by simp) ?_
    simp [assemble, commandWord_fields, channelOf_channelBit]
  | clrStatus m =>
    obtain rfl := Option.some.inj h
    have hmask : (m.setWidth 32).toNat < 8 := by
      rw [BitVec.toNat_setWidth_of_le (by decide)]
      exact m.isLt
    refine decode_commandWord (by decide) (by simpa using hmask) (by simp) ?_
    simp [assemble, commandWord_fields, BitVec.extractLsb'_setWidth_of_le, BitVec.extractLsb'_eq_self]
  | modBpsk | modQpsk | mod8psk | mod16qam | filterOff | filterRrc =>
    obtain rfl := Option.some.inj h
    rfl
  | timerEvent | tick | read | reset => cases h

/-- The words that R57's checks pass are the words of instructions. -/
theorem exists_encode_of_accepted {w : CmdWord} (h : firstReject w = none) : ∃ i, encode i = some w := by
  obtain ⟨⟨hlow, hhigh⟩, hfields, hsel⟩ := (firstReject_eq_none_iff w).mp h
  rw [← commandWord_of_fields (w := w) (by omega)]
  generalize opField w = op, chField w = ch, argField w = arg at hlow hhigh hfields hsel
  have hop : op = 1 ∨ op = 2 ∨ op = 3 ∨ op = 4 ∨ op = 5 ∨ op = 6 ∨ op = 7 ∨ op = 8 := by bv_omega
  have hch (h : 4 ≤ op.toNat) : ch = 0 := by bv_omega
  have hmod (h : op.toNat = 5) : arg.toNat < 4 := by omega
  have hfilter (h : op.toNat = 7) : arg.toNat < 2 := by omega
  have hclr (h : op.toNat = 8) : arg.toNat < 8 := by omega
  rcases hop with rfl | rfl | rfl | rfl | rfl | rfl | rfl | rfl
  · exact ⟨.raw (channelOf ch) arg, by rw [encode, channelBit_channelOf]⟩
  · exact ⟨.dc (channelOf ch) arg, by rw [encode, channelBit_channelOf]⟩
  · exact ⟨.sine (channelOf ch) arg, by rw [encode, channelBit_channelOf]⟩
  · exact ⟨.tone arg, by rw [encode, hch (by decide)]⟩
  · have hlt : arg.toNat < 4 := hmod rfl
    have harg : arg = 0 ∨ arg = 1 ∨ arg = 2 ∨ arg = 3 := by bv_omega
    rw [hch (by decide)]
    rcases harg with rfl | rfl | rfl | rfl
    · exact ⟨.modBpsk, rfl⟩
    · exact ⟨.modQpsk, rfl⟩
    · exact ⟨.mod8psk, rfl⟩
    · exact ⟨.mod16qam, rfl⟩
  · exact ⟨.sr arg, by rw [encode, hch (by decide)]⟩
  · have hlt : arg.toNat < 2 := hfilter rfl
    have harg : arg = 0 ∨ arg = 1 := by bv_omega
    rw [hch (by decide)]
    rcases harg with rfl | rfl
    · exact ⟨.filterOff, rfl⟩
    · exact ⟨.filterRrc, rfl⟩
  · have hlt : arg.toNat < 8 := hclr rfl
    have harg : (arg.setWidth 3).setWidth 32 = arg :=
      BitVec.eq_of_toNat_eq (by simp only [BitVec.toNat_setWidth]; omega)
    exact ⟨.clrStatus (arg.setWidth 3), by rw [encode, harg, hch (by decide)]⟩

/-- Settles O2: an accepted word is the word of some instruction, and decoding it gives that instruction back (O1). -/
theorem acceptedWordIsItsEncoding : Obligations.AcceptedWordIsItsEncoding := by
  intro w i h
  obtain ⟨haccept, -⟩ := decode_ok h
  obtain ⟨j, hj⟩ := exists_encode_of_accepted haccept
  have hij : j = i := Except.ok.inj ((decodeEncodeRoundTrip j w hj).symm.trans h)
  exact hij ▸ hj

/-- The two round trips together: decoding is the inverse of encoding. -/
theorem decode_eq_ok_iff (w : CmdWord) (i : Instr) : decode w = .ok i ↔ encode i = some w :=
  ⟨acceptedWordIsItsEncoding w i, decodeEncodeRoundTrip i w⟩

/-- Settles O4: each word is its instruction's encoding, and decodes to it by the round trip (O1). -/
theorem sampleWordsDecode : Obligations.SampleWordsDecode := by
  intro pair hpair
  have henc : encode pair.1 = some pair.2 := by
    revert pair
    decide
  exact ⟨decodeEncodeRoundTrip _ _ henc, henc⟩

/-! ### The causes -/

/-- A word is rejected by `decode` exactly with the cause of R57's first check that applies. -/
theorem decode_eq_error_iff (w : CmdWord) (c : RejectCause) : decode w = .error c ↔ firstReject w = some c := by
  cases hw : firstReject w with
  | some d => simp [decode, hw]
  | none =>
    obtain ⟨i, hi⟩ := exists_encode_of_accepted hw
    simp [decodeEncodeRoundTrip i w hi]

/-- The rate of SR is the one operand that R57 can find illegal. -/
theorem wellFormed_eq_false_iff (p : Params) (i : Instr) :
    i.wellFormed p = false ↔ ∃ r, i = .sr r ∧ rateLegal p.clkHz r = false := by
  cases i <;> simp [Instr.wellFormed]

/-- R57 whole rejects what `decode` rejects, and the words of SR whose rate is illegal. -/
theorem decodeCommand_eq_error_iff (p : Params) (w : CmdWord) (c : RejectCause) :
    decodeCommand p w = .error c ↔
      firstReject w = some c ∨ c = .invalidRate ∧ ∃ r, decode w = .ok (.sr r) ∧ rateLegal p.clkHz r = false := by
  rw [← decode_eq_error_iff]
  cases hw : decode w with
  | error d => simp [decodeCommand, hw]
  | ok i =>
    have hrate : (∃ r, i = .sr r ∧ rateLegal p.clkHz r = false) ↔ ¬ i.wellFormed p = true := by
      rw [← wellFormed_eq_false_iff, Bool.not_eq_true]
    by_cases hi : i.wellFormed p = true
    · simp [decodeCommand, hw, hi, hrate]
    · simp [decodeCommand, hw, hi, hrate, eq_comm (a := c)]

/-- The words of SR, by their fields as numbers. -/
theorem decode_eq_sr_iff (w : CmdWord) (r : Word32) : decode w = .ok (.sr r) ↔
    (opField w).toNat = 6 ∧ (chField w).toNat = 0 ∧ (rsvField w).toNat = 0 ∧ argField w = r := by
  rw [decode_eq_ok_iff, encode, Option.some_inj]
  constructor
  · rintro rfl
    obtain ⟨ho, hc, hr, ha⟩ := commandWord_fields 6 0 r
    rw [ho, hc, hr, ha]
    exact ⟨rfl, rfl, rfl, rfl⟩
  · rintro ⟨ho, hc, hr, rfl⟩
    have hop : opField w = 6 := by bv_omega
    have hch : chField w = 0 := by bv_omega
    rw [← hop, ← hch, commandWord_of_fields hr]

theorem exists_illegal_rate_iff (clkHz : Nat) (w : CmdWord) :
    (∃ r, decode w = .ok (.sr r) ∧ rateLegal clkHz r = false) ↔ (opField w).toNat = 6 ∧ (chField w).toNat = 0 ∧
      (rsvField w).toNat = 0 ∧ ((argField w).toNat = 0 ∨ clkHz < (argField w).toNat) := by
  have hrate : rateLegal clkHz (argField w) = false ↔ (argField w).toNat = 0 ∨ clkHz < (argField w).toNat := by
    rw [← Bool.not_eq_true, rateLegal_iff]
    omega
  rw [← hrate]
  simp [decode_eq_sr_iff, and_assoc]

/-- Settles O3: the causes 1 to 3 are those of the word's own checks, and cause 4 is that of an SR word. Each branch of
the checks fixes which of the four conditions on the numbers holds. -/
theorem rejectCauseIsLowest : Obligations.RejectCauseIsLowest := by
  intro p w op ch rsv arg hw hch hrsv harg
  obtain ⟨rfl, rfl, rfl, rfl⟩ := fields_of_toNat hw hch hrsv harg
  simp only [decodeCommand_eq_error_iff, exists_illegal_rate_iff, firstReject_eq]
  refine ⟨?opcode, ?field, ?selector, ?rate⟩
  all_goals
    split_ifs <;>
      simp only [Option.some.injEq, reduceCtorEq, true_and, false_and, false_or, or_false, true_iff, false_iff] <;>
      omega

/-! ### Text commands -/

/-- An operand in the range of 32 signed bits is transcribed exactly, into a word that decodes to its instruction. -/
theorem withSigned_exact {f : Word32 → Instr} {v : Int} {w : CmdWord} (hv : -2 ^ 31 ≤ v ∧ v < 2 ^ 31)
    (hw : encode (f (BitVec.ofInt 32 v)) = some w) :
    withSigned f v = .word w ∧ decode w = .ok (f (BitVec.ofInt 32 v)) := by
  refine ⟨?_, decodeEncodeRoundTrip _ _ hw⟩
  rw [withSigned, if_pos hv, wordOf, hw]

/-- An operand outside that range gives no word (R60). -/
theorem withSigned_nothing {f : Word32 → Instr} {v : Int} (hv : v < -2 ^ 31 ∨ 2 ^ 31 ≤ v) :
    withSigned f v = .nothing :=
  if_neg (by omega)

/-- Volts of at most three fraction digits are a whole number of millivolts. -/
theorem volts_mul_thousand (d : Int) {k : Nat} (hk : k ≤ 3) : ((d * 10 ^ (3 - k) : Int) : ℚ) = d / 10 ^ k * 1000 := by
  have hpow : (10 : ℚ) ^ k * 10 ^ (3 - k) = 1000 := by
    rw [pow_mul_pow_sub 10 hk]
    norm_num
  rw [← hpow]
  push_cast
  field_simp

/-- Settles O5: row by row of R60; a word decodes to its instruction by the round trip (O1). -/
theorem textCommandsTranscribeExactly : Obligations.TextCommandsTranscribeExactly := by
  refine ⟨fun c v hlow hhigh ampl => ?signed, fun c v hv ampl => ?outside,
    fun c d k => ⟨fun hk hlow hhigh => ?volts, fun h => ?noVolts⟩, fun r => ⟨fun hr => ?rate, fun hr => ?noRate⟩,
    fun row hrow => ?fixed, rfl, rfl, fun text => rfl⟩
  case signed =>
    obtain ⟨hraw, hraw'⟩ := withSigned_exact (f := .raw c) ⟨hlow, hhigh⟩ rfl
    obtain ⟨hsine, hsine'⟩ := withSigned_exact (f := .sine c) ⟨hlow, hhigh⟩ rfl
    obtain ⟨htone, htone'⟩ := withSigned_exact (f := .tone) ⟨hlow, hhigh⟩ rfl
    have hx : (BitVec.ofInt 32 v).toInt = v := BitVec.toInt_ofInt_eq_self (by decide) hlow hhigh
    exact ⟨BitVec.ofInt 32 v, _, _, _, hx, hraw, hraw', hsine, hsine', htone, htone'⟩
  case outside => exact ⟨withSigned_nothing hv, withSigned_nothing hv, withSigned_nothing hv⟩
  case volts =>
    obtain ⟨hdc, hdc'⟩ := withSigned_exact (f := .dc c) ⟨hlow, hhigh⟩ rfl
    refine ⟨BitVec.ofInt 32 (d * 10 ^ (3 - k)), _, ?_, (if_pos hk).trans hdc, hdc'⟩
    rw [BitVec.toInt_ofInt_eq_self (by decide) hlow hhigh, volts_mul_thousand d hk]
  case noVolts =>
    rw [transcribe]
    split_ifs with hk
    · exact withSigned_nothing (h.resolve_left (by omega))
    · rfl
  case rate =>
    refine ⟨BitVec.ofInt 32 r, _, ?_, if_pos hr, decodeEncodeRoundTrip _ _ rfl⟩
    rw [BitVec.toNat_ofInt]
    omega
  case noRate => exact if_neg (by omega)
  case fixed =>
    have hword : transcribe row.1 = .word row.2.1 ∧ encode row.2.2 = some row.2.1 := by
      revert row
      decide
    obtain ⟨htext, henc⟩ := hword
    exact ⟨htext, decodeEncodeRoundTrip _ _ henc⟩

end Sys2Proof
end

section
/-! The DDS (R63 to R70): the frequency converter as a number, the results of SINE and TONE, and the indices after many
ticks. -/

namespace Sys2Proof.Machine

/-! ### The frequency converter -/

/-- The phase word is the floored quotient, wrapped to 32 bits, and the increment its top 12 bits (R63, R64). -/
theorem incr_toNat (f : Int) (fs : Nat) : ((incr f fs).toNat : Int) = f * 2 ^ 32 / fs % 2 ^ 32 / 2 ^ 20 := by
  simp only [incr, phaseWord, BitVec.extractLsb'_toNat, BitVec.toNat_ofInt, Nat.shiftRight_eq_div_pow]
  omega

/-- Settles O26: the floor of the exact quotient is the quotient of the integer division. -/
theorem incrementIsTruncatedPhase : Obligations.IncrementIsTruncatedPhase := by
  intro f fs _
  have hfloor : ⌊(f * 2 ^ 32 : ℚ) / fs⌋ = f * 2 ^ 32 / fs := by
    rw [← Rat.floor_intCast_div_natCast]
    push_cast
    rfl
  rw [incr_toNat, hfloor]

/-- The increment as R63 writes it, narrowed to its register. -/
theorem incr_eq_ofInt_floor (f : Int) {fs : Nat} (hfs : 1 ≤ fs) :
    incr f fs = BitVec.ofInt 12 (⌊(f * 2 ^ 32 : ℚ) / fs⌋ % 2 ^ 32 / 2 ^ 20) := by
  rw [← incrementIsTruncatedPhase f fs hfs, BitVec.ofInt_natCast, BitVec.ofNat_toNat, BitVec.setWidth_eq]

/-- A frequency from 0 to Fs/2 turns the phase by at most half a period, so the phase does not wrap (R65). -/
theorem incr_le_of_nonneg {f : Int} {fs : Nat} (hfs : 1 ≤ fs) (hf : 0 ≤ f) (hhalf : 2 * f ≤ fs) :
    (incr f fs).toNat ≤ 2048 := by
  have hlow : 0 ≤ f * 2 ^ 32 / (fs : Int) := Int.ediv_nonneg (by omega) (by omega)
  have hhigh : f * 2 ^ 32 / (fs : Int) ≤ 2 ^ 31 := Int.ediv_le_of_le_mul (by omega) (by omega)
  have hincr := incr_toNat f fs
  omega

/-- A frequency from -Fs/2 up to 0 turns the phase back by at most half a period, so the phase wraps once (R65). -/
theorem le_incr_of_neg {f : Int} {fs : Nat} (hfs : 1 ≤ fs) (hf : f < 0) (hhalf : -(fs : Int) ≤ 2 * f) :
    2048 ≤ (incr f fs).toNat := by
  have hlow : -2 ^ 31 ≤ f * 2 ^ 32 / (fs : Int) := Int.le_ediv_of_mul_le (by omega) (by omega)
  have hhigh : f * 2 ^ 32 / (fs : Int) < 0 := Int.ediv_neg_of_neg_of_pos (by omega) (by omega)
  have hincr := incr_toNat f fs
  omega

/-- Half the rate, in either direction, is half a period (R65). -/
theorem incr_of_half_rate {f : Int} {fs : Nat} (hfs : 1 ≤ fs) (hhalf : 2 * f = fs ∨ 2 * f = -fs) :
    (incr f fs).toNat = 2048 := by
  have hfs0 : (fs : Int) ≠ 0 := by omega
  have hquot : f * 2 ^ 32 / (fs : Int) = 2 ^ 31 ∨ f * 2 ^ 32 / (fs : Int) = -2 ^ 31 := by
    obtain hpos | hneg := hhalf
    · exact .inl (Int.ediv_eq_of_eq_mul_left hfs0 (by omega))
    · exact .inr (Int.ediv_eq_of_eq_mul_left hfs0 (by omega))
  have hincr := incr_toNat f fs
  omega

/-- Settles O27: each range of frequencies gives its range of phases, before the top 12 bits are taken. -/
theorem incrementInBand : Obligations.IncrementInBand := by
  refine ⟨fun f fs => incr_le_of_nonneg, fun f fs => le_incr_of_neg, fun h fs hfs hhalf => ⟨?_, ?_⟩, ?_⟩
  · exact incr_of_half_rate hfs (.inl hhalf)
  · exact incr_of_half_rate hfs (.inr (by omega))
  · decide

/-- Settles O28: a whole number of rates more is a whole number of periods more, which the 32-bit phase drops. -/
theorem incrementAliases : Obligations.IncrementAliases := by
  intro f n fs hfs
  have hphase : (f + n * fs) * 2 ^ 32 / (fs : Int) = f * 2 ^ 32 / fs + n * 2 ^ 32 := by
    rw [show (f + n * fs) * 2 ^ 32 = f * 2 ^ 32 + n * 2 ^ 32 * (fs : Int) by ring]
    exact Int.add_mul_ediv_right _ _ (by omega)
  have halias := incr_toNat (f + n * fs) fs
  rw [hphase, Int.add_mul_emod_self_right, ← incr_toNat] at halias
  exact BitVec.eq_of_toNat_eq (Int.ofNat_inj.mp halias)

/-! ### SINE and TONE -/

/-- A rate of at least 1 (R26) gives an increment, by R63's formula. -/
theorem toneInc_eq_some (f : Int) {s : State} (hfs : 1 ≤ s.fsHz.toNat) :
    s.toneInc f = some (BitVec.ofInt 12 (⌊(f * 2 ^ 32 : ℚ) / s.fsHz.toNat⌋ % 2 ^ 32 / 2 ^ 20)) := by
  rw [State.toneInc, if_neg (by omega), incr_eq_ofInt_floor f hfs]

/-- The warning of R66 writes STATUS alone, and only where the frequency's magnitude exceeds half the rate. -/
theorem warnFreq_eq (f : Int) (s : State) : s.warnFreq f = { s with
    status := if 2 * |f| ≤ s.fsHz.toNat then s.status
      else { s.status with rangeWarn := true, warnCause := 3 } } := by
  by_cases h : 2 * |f| ≤ s.fsHz.toNat
  · simp [State.warnFreq, State.warnIf, freqOutside, h]
  · simp [State.warnFreq, State.warnIf, freqOutside, h, lt_of_not_ge, Status.warn, warnCode]

/-- Settles O29: the word is the encoding of SINE (O1); one increment is written after the warning and before the mode
is entered, so the other one stays. -/
theorem sineCommandResult : Obligations.SineCommandResult := by
  intro c f s hfs k
  have hk : s.toneInc (s32 f) = some k := toneInc_eq_some f.toInt hfs
  constructor
  · cases c <;> exact decodeEncodeRoundTrip _ _ rfl
  · have hexec : exec (.sine c f) s = .next (((s.warnFreq (s32 f)).setInc c k).enterMode .sine) := by
      simp only [exec, execSine, hk]
    rw [hexec, warnFreq_eq]
    cases c <;> rfl

/-- Settles O30: as SINE (O29), with both increments written. -/
theorem toneCommandResult : Obligations.ToneCommandResult := by
  intro f s hfs k
  have hk : s.toneInc (s32 f) = some k := toneInc_eq_some f.toInt hfs
  constructor
  · exact decodeEncodeRoundTrip _ _ rfl
  · have hexec : exec (.tone f) s =
        .next ((((s.warnFreq (s32 f)).setInc .i k).setInc .q k).enterMode .sine) := by
      simp only [exec, execTone, hk]
    rw [hexec, warnFreq_eq]
    rfl

/-! ### The indices after many ticks -/

/-- A pending tick, with IDX_I inside its table, sends a burst, advances both channels and is acknowledged (R100). -/
theorem exec_tick_eq_next {s : State} (hpend : s.tickPend = true) (hidx : s.chI.idx.toNat < tableLength s.mode) :
    ∃ vI vQ, exec .tick s = .next ((((s.emitBurst vI vQ).advance .i).advance .q).acknowledge) := by
  obtain ⟨⟨vI, vQ⟩, hv⟩ := lookup_isSome hidx
  exact ⟨vI, vQ, by simp only [exec, execTick, if_pos hpend, hv]⟩

theorem tickMoments_succ (n : Nat) :
    tickMoments (n + 1) = [Request.timerEvent, Request.tick] :: tickMoments n :=
  List.replicate_succ

/-- The state after a step that serves a timer event (R99), with `rest` still offered. -/
def State.afterTimerEvent (rest : List (List Request)) (s : State) : State :=
  { s with
    tickAck := false, rdData := none, inputs := rest, status := s.status.timer s.tickPend, tickPend := true }

theorem step_timerEvent {s : State} {rs : List Request} {later : List (List Request)}
    (hvalid : s.params.valid = true) (hinputs : s.inputs = (.timerEvent :: rs) :: later) (hrs : Request.reset ∉ rs) :
    step s = .next (s.afterTimerEvent (leftOver rs later)) := by
  obtain ⟨-, htimer, -⟩ := stepServesEachRequest s rs later hvalid hrs
  rw [htimer hinputs, leftOver_eq_ite]
  rfl

/-- A step on the dispatcher's turn, offered alone, advances both channels where a tick is pending (R67, R100). -/
theorem step_tick_of_pending {s : State} {later : List (List Request)} (hvalid : s.params.valid = true)
    (hinputs : s.inputs = [.tick] :: later) (hpend : s.tickPend = true)
    (hidx : s.chI.idx.toNat < tableLength s.mode) :
    ∃ t, step s = .next t ∧ t.params = s.params ∧ t.inputs = later ∧ t.mode = s.mode ∧
      t.chI = { s.chI with idx := advancedIdx s.mode s.chI } ∧
      t.chQ = { s.chQ with idx := advancedIdx s.mode s.chQ } := by
  obtain ⟨-, -, -, htick, -⟩ := stepServesEachRequest s [] later hvalid List.not_mem_nil
  obtain ⟨vI, vQ, hexec⟩ := exec_tick_eq_next
    (s := { s with tickAck := false, rdData := none, inputs := later }) hpend hidx
  exact ⟨_, ((htick hinputs).trans (if_pos hpend)).trans hexec, rfl, rfl, rfl, rfl, rfl⟩

/-- What holds before each of the `n` ticks still to come of a run that only ticks: the invariant of R67's induction. -/
structure State.BeforeTicks (n : Nat) (s : State) : Prop where
  valid : s.params.valid = true
  indices : s.IndicesInTable
  inputs : s.inputs = tickMoments n

/-- A timer event and the tick it requests advance both channels once, and the other ticks are still to come. -/
theorem State.BeforeTicks.two_steps {n : Nat} {s : State} (h : s.BeforeTicks (n + 1)) :
    ∃ u t, step s = .next u ∧ step u = .next t ∧ t.BeforeTicks n ∧ t.mode = s.mode ∧
      t.chI = { s.chI with idx := advancedIdx s.mode s.chI } ∧
      t.chQ = { s.chQ with idx := advancedIdx s.mode s.chQ } := by
  obtain ⟨hvalid, ⟨hidxI, -⟩, hinputs⟩ := h
  rw [tickMoments_succ] at hinputs
  have hrequest : step s = .next (s.afterTimerEvent ([.tick] :: tickMoments n)) :=
    step_timerEvent hvalid hinputs (by decide)
  obtain ⟨t, htick, hparams, hlater, hmode, hchI, hchQ⟩ :=
    step_tick_of_pending (s := s.afterTimerEvent ([.tick] :: tickMoments n)) hvalid rfl rfl hidxI
  have hindices : t.IndicesInTable := by
    rw [State.IndicesInTable, hmode, hchI, hchQ]
    exact ⟨advancedIdx_lt _ _, advancedIdx_lt _ _⟩
  exact ⟨_, t, hrequest, htick, ⟨hparams ▸ hvalid, hindices, hlater⟩, hmode, hchI, hchQ⟩

/-- The index after one advance and `n` more is the index after `n + 1`: reducing between them changes nothing. -/
theorem advancedIdx_add_mul_mod (m : Mode) (r : ChannelRegs) (n : Nat) :
    ((advancedIdx m r).toNat + n * r.inc.toNat) % tableLength m =
      (r.idx.toNat + (n + 1) * r.inc.toNat) % tableLength m := by
  rw [advancedIdx_toNat, Nat.mod_add_mod, Nat.succ_mul, Nat.add_assoc, Nat.add_comm r.inc.toNat]

/-- R67's induction, on the number of ticks: each advances both channels once. -/
theorem State.BeforeTicks.run {n : Nat} {s : State} (h : s.BeforeTicks n) :
    ∃ t, core.run (2 * n) s = .next t ∧
      t.chI.idx.toNat = (s.chI.idx.toNat + n * s.chI.inc.toNat) % tableLength s.mode ∧
      t.chQ.idx.toNat = (s.chQ.idx.toNat + n * s.chQ.inc.toNat) % tableLength s.mode := by
  induction n generalizing s with
  | zero =>
    obtain ⟨hidxI, hidxQ⟩ := h.indices
    exact ⟨s, core_run_zero s, by simp [Nat.mod_eq_of_lt hidxI], by simp [Nat.mod_eq_of_lt hidxQ]⟩
  | succ n ih =>
    obtain ⟨u, v, hrequest, htick, hv, hmode, hchI, hchQ⟩ := h.two_steps
    obtain ⟨t, hrun, htI, htQ⟩ := ih hv
    rw [hmode, hchI] at htI
    rw [hmode, hchQ] at htQ
    refine ⟨t, ?_, htI.trans (advancedIdx_add_mul_mod _ _ n), htQ.trans (advancedIdx_add_mul_mod _ _ n)⟩
    rw [Nat.mul_succ, core_run_succ _ hrequest, core_run_succ _ htick, hrun]

/-- Settles O31: nothing but the ticks is offered, so R67's induction applies. The premise that no tick is pending at
the start is not needed: a pending one would be merged with the first request, which sets OVERRUN alone (R99). -/
theorem indexAfterManyTicks : Obligations.IndexAfterManyTicks :=
  fun _ _ hvalid hindices hinputs _ => State.BeforeTicks.run ⟨hvalid, hindices, hinputs⟩

end Sys2Proof.Machine
end

section
/-! The lookup and the constellation tables (R75 to R77): the derived levels as rounded numbers, the codes entry by
entry, and the pair of entries each mode selects. -/

namespace Sys2Proof.Machine

/-! ### The integer square root and the derived levels (R75) -/

/-- The digits of the root are found from the top: a candidate `r` that is at most the root, by less than `2 ^ k`, is
completed to the root. -/
theorem isqrtFrom_bounds (k n r : Nat) (hlow : r * r ≤ n) (hhigh : n < (r + 2 ^ k) * (r + 2 ^ k)) :
    isqrtFrom k n r * isqrtFrom k n r ≤ n ∧ n < (isqrtFrom k n r + 1) * (isqrtFrom k n r + 1) := by
  induction k generalizing r with
  | zero => exact ⟨hlow, hhigh⟩
  | succ k ih =>
    rw [isqrtFrom]
    split
    next hdigit =>
      refine ih (r + 2 ^ k) hdigit ?_
      rwa [Nat.add_assoc, ← Nat.two_mul, ← Nat.pow_succ']
    next hdigit => exact ih r hlow (by omega)

/-- The first candidate, 0, is below the root by less than `2 ^ (log2 n / 2 + 1)`. -/
theorem lt_sq_two_pow_half_log2 (n : Nat) : n < 2 ^ (n.log2 / 2 + 1) * 2 ^ (n.log2 / 2 + 1) := by
  rw [← Nat.pow_add]
  exact Nat.lt_log2_self.trans_le (Nat.pow_le_pow_right two_pos (by omega))

theorem isqrt_bounds (n : Nat) : isqrt n * isqrt n ≤ n ∧ n < (isqrt n + 1) * (isqrt n + 1) :=
  isqrtFrom_bounds _ n 0 (Nat.zero_le n) (by simpa using lt_sq_two_pow_half_log2 n)

theorem isqrt_eq_sqrt (n : Nat) : isqrt n = n.sqrt := Nat.eq_sqrt.mpr (isqrt_bounds n)

/-- G/√2 is half of √(2·G²), whose integer part R75 computes. -/
theorem div_sqrt_two_eq_half_sqrt (g : Nat) : (g : ℝ) / √2 = √((2 * g ^ 2 : Nat) : ℝ) / 2 := by
  rw [Nat.cast_mul, Nat.cast_pow, Nat.cast_ofNat, Real.sqrt_mul zero_le_two, Real.sqrt_sq g.cast_nonneg,
    div_eq_div_iff (by positivity) two_ne_zero, mul_right_comm, Real.mul_self_sqrt zero_le_two, mul_comm]

/-- An odd number is not the square root of an even one: √(2·G²) is no tie between two halves. -/
theorem sq_odd_ne_two_mul_sq (a g : Nat) : (2 * a + 1) * (2 * a + 1) ≠ 2 * g ^ 2 := by
  intro h
  have hodd : Odd ((2 * a + 1) * (2 * a + 1)) := (odd_two_mul_add_one a).mul (odd_two_mul_add_one a)
  exact Nat.not_even_iff_odd.mpr hodd (h ▸ even_two_mul _)

/-- D is the integer nearest to G/√2. With S the integer part of w = √(2·G²), D is S/2 for an even S, where w/2 is less
than 1/2 above it, and (S + 1)/2 for an odd S, where w ≠ S keeps w/2 less than 1/2 below it. -/
theorem diagLevel_near (g : Nat) : |(diagLevel g : ℝ) - g / √2| < 1 / 2 := by
  have hlow := Real.nat_sqrt_le_real_sqrt (a := 2 * g ^ 2)
  have hhigh := Real.real_sqrt_lt_nat_sqrt_succ (a := 2 * g ^ 2)
  rw [div_sqrt_two_eq_half_sqrt, diagLevel]
  rw [← isqrt_eq_sqrt] at hlow hhigh
  generalize isqrt (2 * g ^ 2) = S at hlow hhigh ⊢
  obtain ⟨a, rfl | rfl⟩ := S.even_or_odd'
  · rw [show (2 * a + 1) / 2 = a by omega, abs_lt]
    push_cast at hlow hhigh ⊢
    constructor <;> linarith
  · have hne : ((2 * a + 1 : Nat) : ℝ) ≠ √((2 * g ^ 2 : Nat) : ℝ) := by
      intro h
      have hsq := (Real.sqrt_eq_iff_mul_self_eq (Nat.cast_nonneg _) (Nat.cast_nonneg _)).mp h.symm
      exact sq_odd_ne_two_mul_sq a g (by exact_mod_cast hsq.symm)
    have hstrict := lt_of_le_of_ne hlow hne
    rw [show (2 * a + 1 + 1) / 2 = a + 1 by omega, abs_lt]
    push_cast at hstrict hhigh ⊢
    constructor <;> linarith

/-- T is 0.33·G rounded, ties up: the floor of 0.33·G + 1/2 is the quotient over 100. -/
theorem innerLevel_eq_floor (g : Nat) : (innerLevel g : Int) = ⌊(33 : ℚ) / 100 * g + 1 / 2⌋ := by
  have hquot : (33 : ℚ) / 100 * g + 1 / 2 = ((33 * g + 50 : Nat) : ℚ) / (100 : Nat) := by
    push_cast
    ring
  rw [hquot, Rat.floor_natCast_div_natCast, innerLevel, Int.natCast_ediv]

/-- Settles O34: `isqrt` by its digits, D by the parity of the root, T by its quotient. -/
theorem derivedLevelsAreRounded : Obligations.DerivedLevelsAreRounded :=
  ⟨isqrt_bounds, fun g => ⟨rfl, diagLevel_near g, rfl, innerLevel_eq_floor g⟩⟩

/-! ### The constellation tables (R76) -/

theorem diagLevel_le (g : Nat) : diagLevel g ≤ g := by
  obtain ⟨hle, -⟩ := isqrt_bounds (2 * g ^ 2)
  have hroot : isqrt (2 * g ^ 2) ≤ 2 * g := by nlinarith
  rw [diagLevel]
  omega

theorem innerLevel_le (g : Nat) : innerLevel g ≤ g := by
  rw [innerLevel]
  omega

/-- No level of a constellation table exceeds the gain. -/
theorem constLevels_bounds {g : Nat} {c : Channel} {m : Mode} {level : Int} (h : level ∈ constLevels g c m) :
    -g ≤ level ∧ level ≤ g := by
  have hD := diagLevel_le g
  have hT := innerLevel_le g
  cases c <;> cases m <;> simp only [constLevels, List.mem_cons, List.not_mem_nil, or_false] at h <;> omega

/-- R9 for either channel: offset and gain keep every level inside the 12 bits of a code. -/
theorem gainOf_bounds {p : Params} (hp : p.valid = true) (c : Channel) :
    gainOf p c ≤ offsetOf p c ∧ offsetOf p c + gainOf p c ≤ 4095 := by
  obtain ⟨hI, hQ, -⟩ := (params_valid_iff p).mp hp
  cases c with
  | i => exact hI
  | q => exact hQ

/-- Under legal parameters every entry of a constellation table is offset plus level, as an integer (R76). -/
theorem constEntry_map_toNat {p : Params} (hp : p.valid = true) (c : Channel) (m : Mode) (j : Nat) :
    (constEntry p c m j).map (fun v => (v.toNat : Int)) =
      ((constLevels (gainOf p c) c m)[j]?).map fun level : Int => offsetOf p c + level := by
  rw [constEntry, Option.map_map]
  refine Option.map_congr fun level hlevel => ?_
  obtain ⟨hlow, hhigh⟩ := constLevels_bounds (List.mem_of_getElem? hlevel)
  obtain ⟨hgain, hsum⟩ := gainOf_bounds hp c
  exact code12_toInt (by omega) (by omega)

/-- The codes of a constellation table, in its order, are its levels moved by the offset. -/
theorem constEntry_codes {p : Params} (hp : p.valid = true) (c : Channel) (m : Mode) :
    ((List.range (constLevels (gainOf p c) c m).length).map fun j =>
        (constEntry p c m j).map fun v => (v.toNat : Int)) =
      (constLevels (gainOf p c) c m).map fun level : Int => some (offsetOf p c + level) := by
  refine List.ext_getElem (by simp) fun j hj _ => ?_
  rw [List.length_map, List.length_range] at hj
  simp [constEntry_map_toNat hp, List.getElem?_eq_getElem hj]

/-- Settles O35: each of the eight tables is a case of `constEntry_codes`. -/
theorem constellationCodes : Obligations.ConstellationCodes := by
  intro p hp
  simp only [constEntry_codes hp]
  simp [constLevels, gainOf, offsetOf, sub_eq_add_neg]

/-! ### The lookup (R77) -/

theorem constPair_eq_some_iff {p : Params} {m : Mode} {a b : Nat} {vI vQ : Code} :
    constPair p m a b = some (vI, vQ) ↔ constEntry p .i m a = some vI ∧ constEntry p .q m b = some vQ := by
  unfold constPair
  split <;> simp_all

/-- The bit slices of a QPSK index: bit 0 and bit 1. -/
theorem qpsk_slices {j : Nat} (hj : j < 4) : j &&& 1 = j % 2 ∧ (j &&& 2) >>> 1 = j / 2 := by
  revert j
  decide

/-- The bit slices of a QAM16 index: bits 1:0 and bits 3:2. -/
theorem qam16_slices {j : Nat} (hj : j < 16) : j &&& 3 = j % 4 ∧ (j &&& 12) >>> 2 = j / 4 := by
  revert j
  decide

/-- Settles O36: the lookup answers (`lookup_isSome`), and in a constellation mode its answer is the pair of entries at
the slices of IDX_I. -/
theorem lookupByMode : Obligations.LookupByMode := by
  intro s hidx j
  obtain ⟨⟨vI, vQ⟩, hv⟩ := lookup_isSome hidx
  refine ⟨vI, vQ, hv, ?_⟩
  unfold lookup at hv
  cases hmode : s.mode <;> simp only [hmode, tableLength] at hidx hv ⊢
  case raw => simpa [eq_comm] using hv
  case dc => simpa [eq_comm] using hv
  case sine => simpa [eq_comm] using hv
  case bpsk => exact constPair_eq_some_iff.mp hv
  case psk8 => exact constPair_eq_some_iff.mp hv
  case qpsk =>
    obtain ⟨hI, hQ⟩ := qpsk_slices hidx
    rw [hI, hQ] at hv
    exact constPair_eq_some_iff.mp hv
  case qam16 =>
    obtain ⟨hI, hQ⟩ := qam16_slices hidx
    rw [hI, hQ] at hv
    exact constPair_eq_some_iff.mp hv

end Sys2Proof.Machine
end

section
/-! The sine tables (R71, R73). The model rounds gain times a Taylor fraction (log 8). Three facts make that the rounded
wave: the fraction is within 10⁻¹⁸ of the sine; no multiple of 1/(2·gain) that is a rounding tie lies that near to a sine
of the first quarter (certified for each index by two neighbouring fractions around it); and the other three quarters are
the first one mirrored. -/

namespace Sys2Proof.Machine

open Finset in
/-- The Taylor polynomial of the sine with `n` terms. -/
noncomputable def sineTaylor (n : Nat) (y : ℝ) : ℝ :=
  ∑ j ∈ range n, (-1) ^ j * (y ^ (2 * j + 1) / (2 * j + 1).factorial)

/-- The value of a fraction of the model. -/
noncomputable def fracValue (x : Int × Int) : ℝ := x.1 / x.2

/-- The angle of a table index: 4096 entries to the period (R71). -/
noncomputable def tableAngle (i : Nat) : ℝ := 2 * Real.pi * i / 4096

/-- The angle at which `sineQuarter` takes its polynomial: `tableAngle` with the model's π (log 8). -/
noncomputable def modelAngle (i : Nat) : ℝ := (piNum * i : Nat) / (2048 * piDen : Nat)

/-! ### The Taylor fraction -/

/-- From one odd factorial of the series to the next. -/
theorem factorial_next_odd (k : Nat) :
    ((2 * (k + 1) + 1).factorial : ℝ) = (2 * k + 3) * (2 * k + 2) * (2 * k + 1).factorial := by
  rw [show 2 * (k + 1) + 1 = 2 * k + 1 + 1 + 1 by ring, Nat.factorial_succ, Nat.factorial_succ]
  push_cast
  ring

/-- The sine's series alternates and its terms decrease up to an angle of 2, so the first term left out bounds the
error. -/
theorem abs_sin_sub_sineTaylor_le {y : ℝ} (h₀ : 0 ≤ y) (h₂ : y ≤ 2) (n : Nat) :
    |Real.sin y - sineTaylor n y| ≤ y ^ (2 * n + 1) / (2 * n + 1).factorial := by
  have hanti : Antitone fun j : Nat => y ^ (2 * j + 1) / ((2 * j + 1).factorial : ℝ) := by
    refine antitone_nat_of_succ_le fun j => ?_
    rw [factorial_next_odd, div_le_div_iff₀ (by positivity) (by positivity)]
    have hsq : y ^ 2 ≤ (2 * j + 3) * (2 * j + 2) := by nlinarith [j.cast_nonneg (α := ℝ)]
    calc y ^ (2 * (j + 1) + 1) * (2 * j + 1).factorial
        = y ^ 2 * (y ^ (2 * j + 1) * (2 * j + 1).factorial) := by ring
      _ ≤ (2 * j + 3) * (2 * j + 2) * (y ^ (2 * j + 1) * (2 * j + 1).factorial) := by gcongr
      _ = y ^ (2 * j + 1) * ((2 * j + 3) * (2 * j + 2) * (2 * j + 1).factorial) := by ring
  have hsum : Summable fun j : Nat => y ^ (2 * j + 1) / ((2 * j + 1).factorial : ℝ) :=
    (Real.summable_pow_div_factorial y).comp_injective fun a b (h : 2 * a + 1 = 2 * b + 1) => by omega
  have hsin : Real.sin y = ∑' j : Nat, (-1) ^ j * (y ^ (2 * j + 1) / ((2 * j + 1).factorial : ℝ)) := by
    simp only [Real.sin_eq_tsum, mul_div_assoc]
  rw [hsin]
  exact alternating_series_error_bound _ hanti hsum n

open Finset in
/-- The Horner form of `sineTail` is the tail of the series: its value, over the factorial that the factors before it
have built up, is the alternating sum of the powers over the factorials from there on. -/
theorem sineTail_value {a2 b2 : Nat} (hb : 0 < b2) (n k : Nat) :
    0 < (sineTail a2 b2 n (k + 1)).2 ∧
      fracValue (sineTail a2 b2 n (k + 1)) / (2 * k + 1).factorial =
        ∑ j ∈ range (n + 1), (-1) ^ j * (((a2 : ℝ) / b2) ^ j / (2 * k + 1 + 2 * j).factorial) := by
  induction n generalizing k with
  | zero => simp [sineTail, fracValue]
  | succ n ih =>
    obtain ⟨hpos, hvalue⟩ := ih (k + 1)
    rw [sineTail]
    generalize sineTail a2 b2 n (k + 1 + 1) = t at hpos hvalue ⊢
    refine ⟨by positivity, ?_⟩
    have hden : (t.2 : ℝ) ≠ 0 := by exact_mod_cast hpos.ne'
    have hb' : (b2 : ℝ) ≠ 0 := by exact_mod_cast hb.ne'
    have hstep : ∀ j : Nat, (-1 : ℝ) ^ (j + 1) * (((a2 : ℝ) / b2) ^ (j + 1) / (2 * k + 1 + 2 * (j + 1)).factorial) =
        -((a2 : ℝ) / b2) * ((-1) ^ j * (((a2 : ℝ) / b2) ^ j / (2 * (k + 1) + 1 + 2 * j).factorial)) := by
      intro j
      rw [show 2 * k + 1 + 2 * (j + 1) = 2 * (k + 1) + 1 + 2 * j by ring]
      ring
    rw [sum_range_succ', sum_congr rfl fun j _ => hstep j, ← mul_sum, ← hvalue, factorial_next_odd]
    simp only [fracValue]
    push_cast
    field_simp
    ring

theorem sineQuarter_value (i : Nat) :
    0 < (sineQuarter i).2 ∧ fracValue (sineQuarter i) = sineTaylor 13 (modelAngle i) := by
  have hden : 0 < 2048 * piDen := by decide
  obtain ⟨hpos, hvalue⟩ := sineTail_value (a2 := piNum * i * (piNum * i)) (Nat.mul_pos hden hden) 12 0
  rw [sineQuarter]
  simp only [sineTaylor, modelAngle]
  generalize piNum * i = a at hpos hvalue ⊢
  generalize 2048 * piDen = b at hden hpos hvalue ⊢
  constructor
  · positivity
  · have hterm : ∀ j : Nat, (-1 : ℝ) ^ j * (((a : ℝ) / b) ^ (2 * j + 1) / (2 * j + 1).factorial) =
        (a : ℝ) / b * ((-1) ^ j * ((((a * a : Nat) : ℝ) / (b * b : Nat)) ^ j / (2 * 0 + 1 + 2 * j).factorial)) := by
      intro j
      rw [show 2 * 0 + 1 + 2 * j = 2 * j + 1 by ring, Nat.cast_mul, Nat.cast_mul, mul_div_mul_comm, pow_succ, pow_mul,
        sq]
      ring
    rw [Finset.sum_congr rfl fun j _ => hterm j, ← Finset.mul_sum, ← hvalue]
    simp [fracValue, mul_div_mul_comm]

/-- In the first quarter the error of the model's π (log 8) moves the angle by at most 10⁻²⁰. -/
theorem abs_modelAngle_sub_tableAngle_le {i : Nat} (hi : i ≤ 1024) : |modelAngle i - tableAngle i| ≤ 1 / 10 ^ 20 := by
  have hlow := Real.pi_gt_d20
  have hhigh := Real.pi_lt_d20
  have hle : (i : ℝ) ≤ 1024 := by exact_mod_cast hi
  have hdiff : modelAngle i - tableAngle i = (3.14159265358979323846 - Real.pi) * (i / 2048) := by
    rw [modelAngle, tableAngle, piNum, piDen]
    push_cast
    ring
  rw [hdiff, abs_mul, abs_of_nonneg (by positivity : (0 : ℝ) ≤ i / 2048)]
  have hpi : |3.14159265358979323846 - Real.pi| ≤ 1 / 10 ^ 20 := by
    rw [abs_le]
    constructor <;> linarith
  calc |3.14159265358979323846 - Real.pi| * (i / 2048)
      ≤ 1 / 10 ^ 20 * 1 := by gcongr; linarith
    _ = 1 / 10 ^ 20 := mul_one _

theorem modelAngle_bounds {i : Nat} (hi : i ≤ 1024) : 0 ≤ modelAngle i ∧ modelAngle i ≤ 2 := by
  have hle : (i : ℝ) ≤ 1024 := by exact_mod_cast hi
  rw [modelAngle, piNum, piDen]
  push_cast
  constructor
  · positivity
  · linarith

/-- The error of the model's fractions (log 8): that of the series, below 2²⁷/27!, and that of π. -/
theorem abs_sineQuarter_sub_sin_lt {i : Nat} (hi : i ≤ 1024) :
    |fracValue (sineQuarter i) - Real.sin (tableAngle i)| < 1 / 10 ^ 18 := by
  obtain ⟨-, hvalue⟩ := sineQuarter_value i
  obtain ⟨h₀, h₂⟩ := modelAngle_bounds hi
  have hseries : |Real.sin (modelAngle i) - sineTaylor 13 (modelAngle i)| ≤ 1 / 10 ^ 19 :=
    calc |Real.sin (modelAngle i) - sineTaylor 13 (modelAngle i)|
        ≤ modelAngle i ^ 27 / Nat.factorial 27 := abs_sin_sub_sineTaylor_le h₀ h₂ 13
      _ ≤ 2 ^ 27 / Nat.factorial 27 := by gcongr
      _ ≤ 1 / 10 ^ 19 := by norm_num [Nat.factorial]
  have hpi : |Real.sin (modelAngle i) - Real.sin (tableAngle i)| ≤ 1 / 10 ^ 20 :=
    (Real.abs_sin_sub_sin_le _ _).trans (abs_modelAngle_sub_tableAngle_le hi)
  rw [hvalue, abs_lt]
  rw [abs_le] at hseries hpi
  constructor <;> linarith

/-! ### Neighbouring fractions -/

/-- A fraction `P / D` that lies from `lo / scale` to `hi / scale`, between two neighbouring fractions `p / q` and
`r / t`, has at least the sum of their denominators as its own. -/
theorem add_le_den_of_between {scale lo hi p q r t : Nat} (hdet : r * q = p * t + 1) (hleft : p * scale < lo * q)
    (hright : hi * t < r * scale) {P : Int} {D : Nat} (hD : 0 < D) (hlo : (lo * D : Int) ≤ P * scale)
    (hhi : P * scale ≤ hi * D) : q + t ≤ D := by
  zify at hdet hleft hright hD ⊢
  have habove : (p : Int) * D < P * q := by
    have : (p * D : Int) * scale < (P * q) * scale := by nlinarith
    exact lt_of_mul_lt_mul_right this (by positivity)
  have hbelow : P * t < (r : Int) * D := by
    have : (P * t : Int) * scale < (r * D) * scale := by nlinarith
    exact lt_of_mul_lt_mul_right this (by positivity)
  have hsplit : (D : Int) = q * (r * D - P * t) + t * (P * q - p * D) := by linear_combination -(D : Int) * hdet
  nlinarith

/-- No fraction with a denominator from 1 to `den` lies from `lo / scale` to `hi / scale`. The certificate is a pair of
neighbouring fractions around them whose denominators add up to more than `den`; from the neighbours `p / q` and `r / t`
it is sought in `fuel` turns, each of which moves first the left and then the right neighbour as far as it stays
outside. -/
def fractionFree (den scale lo hi : Nat) : (fuel p q r t : Nat) → Bool
  | 0, p, q, r, t => decide (den < q + t ∧ p * scale < lo * q ∧ hi * t < r * scale)
  | fuel + 1, p, q, r, t =>
    let k := (lo * q - p * scale - 1) / (r * scale - lo * t)
    let m := (r * scale - hi * t - 1) / (hi * (q + k * t) - (p + k * r) * scale)
    fractionFree den scale lo hi fuel (p + k * r) (q + k * t) (r + m * (p + k * r)) (t + m * (q + k * t))

/-- A certificate shows an interval of positive numbers. -/
theorem pos_of_fractionFree {den scale lo hi fuel p q r t : Nat}
    (h : fractionFree den scale lo hi fuel p q r t = true) : 0 < lo := by
  induction fuel generalizing p q r t with
  | zero =>
    obtain ⟨-, hleft, -⟩ := of_decide_eq_true h
    exact Nat.pos_of_mul_pos_right (Nat.zero_lt_of_lt hleft)
  | succ fuel ih => exact ih h

/-- A certificate is sound: neighbours stay neighbours in each turn, however far they are moved. -/
theorem lt_or_gt_of_fractionFree {den scale lo hi fuel p q r t : Nat} (hdet : r * q = p * t + 1)
    (h : fractionFree den scale lo hi fuel p q r t = true) {P : Int} {D : Nat} (hpos : 0 < D) (hD : D ≤ den) :
    P * scale < lo * D ∨ hi * D < P * scale := by
  induction fuel generalizing p q r t with
  | zero =>
    obtain ⟨hden, hleft, hright⟩ := of_decide_eq_true h
    by_contra! hin
    obtain ⟨hlo, hhi⟩ := hin
    exact absurd (add_le_den_of_between hdet hleft hright hpos hlo hhi) (by omega)
  | succ fuel ih =>
    refine ih ?_ h
    linear_combination hdet

/-! ### Rounding the two alike -/

/-- Every gain brings `s` and `x` within 1/2 of one integer, so both round to it and neither is a tie (R72). -/
def RoundsAlike (s x : ℝ) : Prop :=
  ∀ G : Nat, G ≤ 2047 → ∃ m : Int, |G * s - m| < 1 / 2 ∧ |G * x - m| < 1 / 2

theorem RoundsAlike.neg {s x : ℝ} (h : RoundsAlike s x) : RoundsAlike (-s) (-x) := by
  intro G hG
  obtain ⟨m, hs, hx⟩ := h G hG
  refine ⟨-m, ?_⟩
  rw [← abs_neg] at hs hx
  constructor
  · convert hs using 2; push_cast; ring
  · convert hx using 2; push_cast; ring

/-- An integer and a number near to it round alike. -/
theorem roundsAlike_of_int {x : ℝ} (z : Int) (h : |x - z| < 1 / 10 ^ 18) : RoundsAlike z x := by
  intro G hG
  have hG' : (G : ℝ) ≤ 2047 := by exact_mod_cast hG
  refine ⟨G * z, by simp, ?_⟩
  calc |(G : ℝ) * x - (G * z : Int)| = G * |x - z| := by
        push_cast
        rw [← mul_sub, abs_mul, abs_of_nonneg G.cast_nonneg]
    _ ≤ 2047 * (1 / 10 ^ 18) := by gcongr
    _ < 1 / 2 := by norm_num

/-- Two numbers in an interval without fractions of denominators up to 2·2047 round alike: a tie between them would be
such a fraction. -/
theorem roundsAlike_of_fractionFree {scale lo hi fuel : Nat} (hfree : fractionFree 4094 scale lo hi fuel 0 1 1 1 = true)
    {s x : ℝ} (hs : lo ≤ s * scale ∧ s * scale ≤ hi) (hx : lo ≤ x * scale ∧ x * scale ≤ hi) : RoundsAlike s x := by
  intro G hG
  rcases Nat.eq_zero_or_pos G with rfl | hpos
  · exact ⟨0, by simp, by simp⟩
  have hGpos : (0 : ℝ) < G := by exact_mod_cast hpos
  have tie : ∀ P : Int, (P < 2 * G * s ∧ P < 2 * G * x) ∨ (2 * G * s < P ∧ 2 * G * x < P) := by
    intro P
    have below : ∀ v : ℝ, lo ≤ v * scale → P * scale < (lo * (2 * G : Nat) : Int) → P < 2 * G * v := by
      intro v hv h
      have h : (P : ℝ) * scale < lo * (2 * G) := by exact_mod_cast h
      exact lt_of_mul_lt_mul_right (by nlinarith) scale.cast_nonneg
    have above : ∀ v : ℝ, v * scale ≤ hi → (hi * (2 * G : Nat) : Int) < P * scale → 2 * G * v < P := by
      intro v hv h
      have h : (hi : ℝ) * (2 * G) < P * scale := by exact_mod_cast h
      exact lt_of_mul_lt_mul_right (by nlinarith) scale.cast_nonneg
    obtain h | h := lt_or_gt_of_fractionFree rfl hfree (P := P) (D := 2 * G) (by omega) (by omega)
    · exact .inl ⟨below s hs.1 h, below x hx.1 h⟩
    · exact .inr ⟨above s hs.2 h, above x hx.2 h⟩
  refine ⟨⌊G * x + 1 / 2⌋, ?_⟩
  have hfloor := Int.floor_le (G * x + 1 / 2)
  have hlt := Int.lt_floor_add_one (G * x + 1 / 2)
  generalize ⌊G * x + 1 / 2⌋ = m at hfloor hlt ⊢
  obtain ⟨hslow, hxlow⟩ := (tie (2 * m - 1)).resolve_right fun h => absurd h.2 (by push_cast; linarith)
  obtain ⟨hshigh, hxhigh⟩ := (tie (2 * m + 1)).resolve_left fun h => absurd h.2 (by push_cast; linarith)
  push_cast at hslow hxlow hshigh hxhigh
  simp only [abs_lt]
  refine ⟨⟨?_, ?_⟩, ?_, ?_⟩ <;> linarith

/-! ### The first quarter -/

/-- The model's fraction for the sine, as a whole number of 10⁻¹⁵. -/
def sineScaled (i : Nat) : Nat := ((sineQuarter i).1 * 10 ^ 15 / (sineQuarter i).2).toNat

theorem sineScaled_bounds {i : Nat} (h : 0 < sineScaled i) :
    sineScaled i ≤ fracValue (sineQuarter i) * 10 ^ 15 ∧ fracValue (sineQuarter i) * 10 ^ 15 < sineScaled i + 1 := by
  obtain ⟨hpos, -⟩ := sineQuarter_value i
  unfold sineScaled at h ⊢
  unfold fracValue
  generalize sineQuarter i = x at h hpos ⊢
  have hcast : ((x.1 * 10 ^ 15 / x.2).toNat : Int) = x.1 * 10 ^ 15 / x.2 := Int.toNat_of_nonneg (by omega)
  have hden : (0 : ℝ) < x.2 := by exact_mod_cast hpos
  have hlow := Int.ediv_mul_le (x.1 * 10 ^ 15) hpos.ne'
  have hhigh := Int.lt_ediv_add_one_mul_self (x.1 * 10 ^ 15) hpos
  rw [← hcast] at hlow hhigh
  rw [div_mul_eq_mul_div, le_div_iff₀ hden, div_lt_iff₀ hden]
  exact ⟨by exact_mod_cast hlow, by exact_mod_cast hhigh⟩

/-- The certificate of one index: no fraction with a denominator up to 2·2047, which the greatest legal gain makes of a
tie (R9), lies in the interval of 3·10⁻¹⁵ around the model's fraction. -/
def sineIsolated (i : Nat) : Bool :=
  fractionFree 4094 (10 ^ 15) (sineScaled i - 1) (sineScaled i + 2) 8 0 1 1 1

/-- The certificates of the first quarter. That no entry is within the model's error of a tie is a fact about these 1023
numbers, so it is computed, in blocks of 32. -/
theorem sineIsolated_block {b : Nat} (hb : b < 32) : ∀ j < 32, 32 * b + j ≠ 0 → sineIsolated (32 * b + j) = true := by
  interval_cases b <;> decide

theorem sineIsolated_of_lt {i : Nat} (h₀ : i ≠ 0) (h : i < 1024) : sineIsolated i = true := by
  have := sineIsolated_block (b := i / 32) (by omega) (i % 32) (by omega)
  rw [Nat.div_add_mod] at this
  exact this h₀

/-- The sine of an isolated index and the model's fraction for it lie in the certified interval. -/
theorem roundsAlike_of_isolated {i : Nat} (hi : i ≤ 1024) (h : sineIsolated i = true) :
    RoundsAlike (Real.sin (tableAngle i)) (fracValue (sineQuarter i)) := by
  have hpos : 0 < sineScaled i - 1 := pos_of_fractionFree h
  have hpred : ((sineScaled i - 1 : Nat) : ℝ) = sineScaled i - 1 := Nat.cast_pred (by omega)
  obtain ⟨hlow, hhigh⟩ := sineScaled_bounds (i := i) (by omega)
  have herror := abs_sineQuarter_sub_sin_lt hi
  rw [abs_lt] at herror
  refine roundsAlike_of_fractionFree h ?_ ?_ <;> push_cast [hpred] <;> constructor <;> linarith

theorem tableAngle_zero : tableAngle 0 = 0 := by simp [tableAngle]

theorem tableAngle_quarter : tableAngle 1024 = Real.pi / 2 := by
  rw [tableAngle]
  push_cast
  ring

/-- In the first quarter the sine is 0, 1 or isolated, so that the model's fraction rounds as the sine does. -/
theorem sineQuarter_roundsAlike {i : Nat} (hi : i ≤ 1024) :
    RoundsAlike (Real.sin (tableAngle i)) (fracValue (sineQuarter i)) := by
  have herror := abs_sineQuarter_sub_sin_lt hi
  by_cases h₀ : i = 0
  · have hsin : Real.sin (tableAngle i) = (0 : Int) := by rw [h₀, tableAngle_zero, Real.sin_zero, Int.cast_zero]
    rw [hsin] at herror ⊢
    exact roundsAlike_of_int 0 herror
  by_cases h₁ : i = 1024
  · have hsin : Real.sin (tableAngle i) = (1 : Int) := by rw [h₁, tableAngle_quarter, Real.sin_pi_div_two, Int.cast_one]
    rw [hsin] at herror ⊢
    exact roundsAlike_of_int 1 herror
  exact roundsAlike_of_isolated hi (sineIsolated_of_lt h₀ (by omega))

/-! ### The whole period -/

/-- An index is its place in a quarter, the quarters before it and whole periods. -/
theorem tableAngle_eq (i : Nat) : tableAngle i =
    tableAngle (i % 1024) + (i % 4096 / 1024 : Nat) * (Real.pi / 2) + (i / 4096 : Nat) * (2 * Real.pi) := by
  have hi : i = i % 1024 + 1024 * (i % 4096 / 1024) + 4096 * (i / 4096) := by omega
  have hcast : (i : ℝ) = (i % 1024 : Nat) + 1024 * (i % 4096 / 1024 : Nat) + 4096 * (i / 4096 : Nat) := by
    exact_mod_cast hi
  rw [tableAngle, tableAngle, hcast]
  ring

theorem tableAngle_quarter_sub {r : Nat} (hr : r ≤ 1024) : tableAngle (1024 - r) = Real.pi / 2 - tableAngle r := by
  rw [tableAngle, tableAngle, Nat.cast_sub hr]
  push_cast
  ring

theorem fracValue_neg (x : Int × Int) : fracValue (-x.1, x.2) = -fracValue x := by
  simp [fracValue, neg_div]

/-- The symmetries of `sineFrac` are those of the sine, so that its fractions round as the sine does at every index. -/
theorem sineFrac_roundsAlike (i : Nat) :
    0 < (sineFrac i).2 ∧ RoundsAlike (Real.sin (tableAngle i)) (fracValue (sineFrac i)) := by
  have hr : i % 1024 ≤ 1024 := by omega
  have hmirror := tableAngle_quarter_sub hr
  have hrising := sineQuarter_roundsAlike hr
  have hfalling := sineQuarter_roundsAlike (Nat.sub_le 1024 (i % 1024))
  obtain ⟨hposRising, -⟩ := sineQuarter_value (i % 1024)
  obtain ⟨hposFalling, -⟩ := sineQuarter_value (1024 - i % 1024)
  rw [hmirror, Real.sin_pi_div_two_sub] at hfalling
  rw [tableAngle_eq i, Real.sin_add_nat_mul_two_pi, sineFrac]
  have hquarter : i % 4096 / 1024 < 4 := by omega
  generalize i % 4096 / 1024 = quarter at hquarter ⊢
  interval_cases quarter
  · exact ⟨hposRising, by simpa using hrising⟩
  · exact ⟨hposFalling, by simpa [Real.sin_add_pi_div_two] using hfalling⟩
  · refine ⟨hposRising, ?_⟩
    have hsin : Real.sin (tableAngle (i % 1024) + (2 : Nat) * (Real.pi / 2)) = -Real.sin (tableAngle (i % 1024)) := by
      rw [Nat.cast_ofNat, mul_div_cancel₀ _ two_ne_zero, Real.sin_add_pi]
    simpa only [hsin, fracValue_neg] using hrising.neg
  · refine ⟨hposFalling, ?_⟩
    have hsin : Real.sin (tableAngle (i % 1024) + (3 : Nat) * (Real.pi / 2)) = -Real.cos (tableAngle (i % 1024)) := by
      rw [show tableAngle (i % 1024) + (3 : Nat) * (Real.pi / 2) = tableAngle (i % 1024) + Real.pi / 2 + Real.pi by
        push_cast; ring, Real.sin_add_pi, Real.sin_add_pi_div_two]
    simpa only [hsin, fracValue_neg] using hfalling.neg

/-! ### The entries -/

/-- `roundDiv` answers the integer within 1/2 of the fraction (R13). -/
theorem roundDiv_eq {n d m : Int} (hd : 0 < d) (h : |(n : ℝ) / d - m| < 1 / 2) : roundDiv n d = m := by
  have hd' : (0 : ℝ) < d := by exact_mod_cast hd
  rw [abs_lt, lt_sub_iff_add_lt, sub_lt_iff_lt_add, lt_div_iff₀ hd', div_lt_iff₀ hd'] at h
  obtain ⟨hbelow, habove⟩ := h
  have hlow : m * (2 * d) ≤ 2 * n + d := by
    have : (m : ℝ) * (2 * d) ≤ 2 * n + d := by linarith
    exact_mod_cast this
  have hhigh : 2 * n + d < (m + 1) * (2 * d) := by
    have : 2 * (n : ℝ) + d < (m + 1) * (2 * d) := by linarith
    exact_mod_cast this
  exact le_antisymm (Int.lt_add_one_iff.mp (Int.ediv_lt_of_lt_mul (by omega) hhigh))
    (Int.le_ediv_of_mul_le (by omega) hlow)

theorem waveEntry_eq {G : Nat} (O : Nat) {x : Int × Int} {m : Int} (hden : 0 < x.2)
    (h : |G * fracValue x - m| < 1 / 2) : waveEntry G O x = m + O := by
  have hden' : (x.2 : ℝ) ≠ 0 := by exact_mod_cast hden.ne'
  refine roundDiv_eq hden ?_
  convert h using 2
  rw [fracValue]
  push_cast
  field_simp
  ring

/-- Each entry is within 1/2 of its exact value, and is a code (R71). -/
theorem sineRom_near {p : Params} (hp : p.valid = true) (c : Channel) (k : Code) :
    |(gainOf p c : ℝ) * Real.sin (tableAngle (wavePhase c k.toNat)) + offsetOf p c - (sineRom p c k).toNat| < 1 / 2 := by
  obtain ⟨hgain, hsum⟩ := gainOf_bounds hp c
  obtain ⟨hden, hround⟩ := sineFrac_roundsAlike (wavePhase c k.toNat)
  obtain ⟨m, hsin, hfrac⟩ := hround (gainOf p c) (by omega)
  have hentry : sineEntry p c k.toNat = m + offsetOf p c := waveEntry_eq _ hden hfrac
  have hm : |(m : ℝ)| < gainOf p c + 1 := by
    have hle : |(gainOf p c : ℝ) * Real.sin (tableAngle (wavePhase c k.toNat))| ≤ gainOf p c := by
      rw [abs_mul, abs_of_nonneg (Nat.cast_nonneg _)]
      exact mul_le_of_le_one_right (Nat.cast_nonneg _) (Real.abs_sin_le_one _)
    rw [abs_le] at hle
    rw [abs_lt] at hsin ⊢
    constructor <;> linarith
  have hm : |m| < gainOf p c + 1 := by exact_mod_cast hm
  rw [abs_lt] at hm
  have hcode : ((sineRom p c k).toNat : Int) = m + offsetOf p c := by
    rw [sineRom, hentry]
    exact code12_toInt (by omega) (by omega)
  have hcode : ((sineRom p c k).toNat : ℝ) = m + offsetOf p c := by exact_mod_cast hcode
  rw [hcode]
  convert hsin using 2
  ring

/-- Settles O32: `sineRom_near` for both channels; the cosine is the sine a quarter on. -/
theorem sineRomIsRoundedWave : Obligations.SineRomIsRoundedWave := by
  intro p k hp
  have hquarter : tableAngle (k.toNat + 1024) = tableAngle k.toNat + Real.pi / 2 := by
    rw [tableAngle, tableAngle]
    push_cast
    ring
  have hcos := sineRom_near hp .q k
  rw [wavePhase, hquarter, Real.sin_add_pi_div_two] at hcos
  exact ⟨sineRom_near hp .i k, hcos⟩

/-- Where the sine is an integer the entry is exact (R71). -/
theorem sineRom_eq_of_sin_eq {p : Params} (hp : p.valid = true) {c : Channel} {k : Code} {z : Int}
    (hz : Real.sin (tableAngle (wavePhase c k.toNat)) = z) :
    ((sineRom p c k).toNat : Int) = gainOf p c * z + offsetOf p c := by
  have hnear := sineRom_near hp c k
  rw [hz] at hnear
  have hlt : |(gainOf p c : Int) * z + offsetOf p c - (sineRom p c k).toNat| < 1 := by
    have := hnear.trans one_half_lt_one
    exact_mod_cast this
  rw [Int.abs_lt_one_iff] at hlt
  omega

/-- The sine at the quarter points. -/
theorem sin_tableAngle_quarters :
    Real.sin (tableAngle 0) = (0 : Int) ∧ Real.sin (tableAngle 1024) = (1 : Int) ∧
      Real.sin (tableAngle 2048) = (0 : Int) ∧ Real.sin (tableAngle 3072) = (-1 : Int) ∧
      Real.sin (tableAngle 4096) = (0 : Int) := by
  have h₂ : tableAngle 2048 = Real.pi := by rw [tableAngle]; push_cast; ring
  have h₃ : tableAngle 3072 = Real.pi / 2 + Real.pi := by rw [tableAngle]; push_cast; ring
  have h₄ : tableAngle 4096 = 2 * Real.pi := by rw [tableAngle]; push_cast; ring
  simp [tableAngle_zero, tableAngle_quarter, h₂, h₃, h₄, Real.sin_add_pi]

/-- `sineFrac` has a period of 4096. -/
theorem sineFrac_mod (i : Nat) : sineFrac (i % 4096) = sineFrac i := by
  have hperiod : i % 4096 % 1024 = i % 1024 := by omega
  rw [sineFrac, sineFrac, Nat.mod_mod, hperiod]

/-- Settles O33: the quarter points are exact by `sineRom_eq_of_sin_eq`; Q is I a quarter on by the period of
`sineFrac`. -/
theorem sineRomQuarterPoints : Obligations.SineRomQuarterPoints := by
  intro p hp
  obtain ⟨h0, h1, h2, h3, h4⟩ := sin_tableAngle_quarters
  have hgI : p.gainI ≤ p.offsetI := (gainOf_bounds hp .i).1
  have hgQ : p.gainQ ≤ p.offsetQ := (gainOf_bounds hp .q).1
  have hi0 := sineRom_eq_of_sin_eq hp (c := .i) (k := 0) h0
  have hi1 := sineRom_eq_of_sin_eq hp (c := .i) (k := 1024) h1
  have hi2 := sineRom_eq_of_sin_eq hp (c := .i) (k := 2048) h2
  have hi3 := sineRom_eq_of_sin_eq hp (c := .i) (k := 3072) h3
  have hq0 := sineRom_eq_of_sin_eq hp (c := .q) (k := 0) h1
  have hq1 := sineRom_eq_of_sin_eq hp (c := .q) (k := 1024) h2
  have hq2 := sineRom_eq_of_sin_eq hp (c := .q) (k := 2048) h3
  have hq3 := sineRom_eq_of_sin_eq hp (c := .q) (k := 3072) h4
  simp only [gainOf, offsetOf] at hi0 hi1 hi2 hi3 hq0 hq1 hq2 hq3
  refine ⟨by omega, by omega, by omega, by omega, fun hgain hoffset k => ?_⟩
  have hindex : (k + 1024).toNat = (k.toNat + 1024) % 4096 := BitVec.toNat_add k 1024
  simp only [sineRom, sineEntry, wavePhase, gainOf, offsetOf, hgain, hoffset, hindex, sineFrac_mod]

end Sys2Proof.Machine
end

section
/-! The DAC word encoder and the tick (R82, R83, R88, R100): the transport word as a sum, and the whole result of a tick. -/

namespace Sys2Proof.Machine

/-! ### The transport word (R83) -/

/-- A header and a code share no bit: the low 12 bits of each header are 0 (R82, R83). -/
theorem header_and_code (c : Channel) (v : Code) : header c &&& v.setWidth 16 = 0#16 := by
  ext k hk
  have hlow : ∀ j < 12, (header c).getLsbD j = false := by cases c <;> decide
  by_cases hcode : k < 12
  · simp [← BitVec.getLsbD_eq_getElem, hlow k hcode]
  · simp [BitVec.getLsbD_of_ge v k (Nat.le_of_not_lt hcode)]

/-- With no bit shared, the OR of R83 is a sum. -/
theorem dacWord_eq_add (c : Channel) (v : Code) : dacWord c v = header c + v.setWidth 16 :=
  (BitVec.add_eq_or_of_and_eq_zero _ _ (header_and_code c v)).symm

/-- The sum of R83 does not wrap, since a code is less than 0x1000. -/
theorem dacWord_toNat (c : Channel) (v : Code) : (dacWord c v).toNat = (header c).toNat + v.toNat := by
  have hheader : (header c).toNat ≤ 0xB000 := by cases c <;> decide
  rw [dacWord_eq_add, BitVec.toNat_add, BitVec.toNat_setWidth]
  omega

/-- The code can be read back from the transport word. -/
theorem dacWord_low_bits (c : Channel) (v : Code) : (dacWord c v).extractLsb' 0 12 = v := by
  have hheader : (header c).toNat % 2 ^ 12 = 0 := by cases c <;> rfl
  apply BitVec.eq_of_toNat_eq
  rw [BitVec.extractLsb'_toNat, dacWord_toNat, Nat.shiftRight_zero]
  omega

/-- Settles O37: the OR is a sum because header and code share no bit; the header bits are read back by
`wordHeader_dacWord`. -/
theorem dacWordIsHeaderPlusCode : Obligations.DacWordIsHeaderPlusCode := by
  intro v
  refine ⟨dacWord_toNat .i v, dacWord_toNat .q v, fun c => ⟨dacWord_low_bits c v, ?_⟩⟩
  calc (dacWord c v).extractLsb' 12 4
      _ = (header c).extractLsb' 12 4 := wordHeader_dacWord c v
      _ = if c = .q then 0xB else 0x3 := by cases c <;> rfl

/-! ### The tick (R88, R100) -/

/-- A pending tick sends the burst of the codes its lookup answers, advances both channels and is acknowledged. -/
theorem exec_tick_of_lookup {s : State} {vI vQ : Code} (hpend : s.tickPend = true) (hlookup : lookup s = some (vI, vQ)) :
    exec .tick s = .next ((((s.emitBurst vI vQ).advance .i).advance .q).acknowledge) := by
  simp only [exec, execTick, if_pos hpend, hlookup]

/-- Settles O41: the lookup answers inside the table (R22), the words of its burst are sums by `dacWord_eq_add`, and
neither advance touches what the other reads. -/
theorem tickResult : Obligations.TickResult := by
  intro s hpend hidx
  obtain ⟨⟨vI, vQ⟩, hlookup⟩ := lookup_isSome hidx
  refine ⟨vI, vQ, hlookup, ?_⟩
  rw [exec_tick_of_lookup hpend hlookup, emitBurst_eq, dacWord_eq_add, dacWord_eq_add]
  rfl

end Sys2Proof.Machine
end

section
/-! The mode commands (R89 to R98): the DC mapping as a rounded level, the results of RAW, DC, MOD, FILTER and
CLR_STATUS, and the mode and the indices after every mode-setting instruction. -/

namespace Sys2Proof.Machine

/-! ### The DC mapping (R93) -/

/-- The integer division of `dcmap` is the floor of its exact quotient, which is R93's level plus 1/2. -/
theorem dcmap_eq_floor (mv : Int) : dcmap mv = ⌊((1 : ℚ) / 2 - mv / 1000) * 4095 + 1 / 2⌋ := by
  have hquot : ((1 : ℚ) / 2 - mv / 1000) * 4095 + 1 / 2 = (2 * (500 - mv) * 4095 + 1000 : Int) / (2000 : Nat) := by
    push_cast
    ring
  rw [hquot, Rat.floor_intCast_div_natCast]
  rfl

/-- The mapping stays inside the 12-bit range exactly on the levels R93 names. -/
theorem dcmap_mem_iff (mv : Int) : 0 ≤ dcmap mv ∧ dcmap mv ≤ 4095 ↔ -500 ≤ mv ∧ mv ≤ 500 := by
  unfold dcmap
  omega

/-- Settles O19: the floor of the exact quotient is the quotient of the integer division. -/
theorem dcMapIsRoundedLevel : Obligations.DcMapIsRoundedLevel :=
  fun mv => ⟨dcmap_eq_floor mv, dcmap_mem_iff mv⟩

/-! ### RAW and DC (R92, R94) -/

/-- The code a clamped value is written as (R13, R84). -/
theorem code12_clamp (v : Int) : code12 (clamp v) = BitVec.ofInt 12 (min 4095 (max 0 v)) := by
  rw [code12, clamp, max_comm, min_comm]

/-- The warning of a clamped value writes STATUS alone, and only where the value lies outside [0, 4095] (R108). -/
theorem warnIf_clamp_ne (v : Int) (c : WarnCause) (s : State) : s.warnIf (decide (clamp v ≠ v)) c = { s with
    status := if 0 ≤ v ∧ v ≤ 4095 then s.status
      else { s.status with rangeWarn := true, warnCause := warnCode c } } := by
  by_cases h : 0 ≤ v ∧ v ≤ 4095
  · simp [State.warnIf, clamp_eq_self_iff, h]
  · simp only [State.warnIf, ne_eq, clamp_eq_self_iff, h, not_false_eq_true, decide_true, if_true, if_false]
    rfl

/-- Settles O20: the word is the encoding of DC (O1); the mapped level leaves the 12-bit range exactly outside
[-500, 500] millivolts, so the warning is that of the statement. -/
theorem dcCommandResult : Obligations.DcCommandResult := by
  intro c mv s code
  constructor
  · cases c <;> exact decodeEncodeRoundTrip _ _ rfl
  · have hcode : code12 (clamp (dcmap (s32 mv))) = code := by
      rw [code12_clamp, dcmap_eq_floor]
      rfl
    simp only [exec, execDc, warnIf_clamp_ne, dcmap_mem_iff, hcode]
    cases c <;> rfl

/-- Settles O18: as DC (O20), with the value itself clamped. -/
theorem rawCommandResult : Obligations.RawCommandResult := by
  intro c v s
  constructor
  · cases c <;> exact decodeEncodeRoundTrip _ _ rfl
  · simp only [exec, execRaw, warnIf_clamp_ne, code12_clamp]
    cases c <;> rfl

/-! ### MOD and FILTER (R95, R97) -/

/-- Settles O21: each word is its instruction's encoding (O1), and entering a constellation writes the mode, the indices
and the increments alone (`enterConstellation_eq`). -/
theorem modCommandResult : Obligations.ModCommandResult := fun s =>
  ⟨⟨decodeEncodeRoundTrip .modBpsk _ rfl, congrArg Host.Outcome.next (enterConstellation_eq .bpsk s)⟩,
    ⟨decodeEncodeRoundTrip .modQpsk _ rfl, congrArg Host.Outcome.next (enterConstellation_eq .qpsk s)⟩,
    ⟨decodeEncodeRoundTrip .mod8psk _ rfl, congrArg Host.Outcome.next (enterConstellation_eq .psk8 s)⟩,
    ⟨decodeEncodeRoundTrip .mod16qam _ rfl, congrArg Host.Outcome.next (enterConstellation_eq .qam16 s)⟩⟩

/-- Settles O22: both words are encodings (O1), and neither instruction has an effect. -/
theorem filterHasNoEffect : Obligations.FilterHasNoEffect := fun _ =>
  ⟨decodeEncodeRoundTrip .filterOff _ rfl, rfl, decodeEncodeRoundTrip .filterRrc _ rfl, rfl⟩

/-! ### CLR_STATUS (R98) -/

/-- A mask written straight after 57 zero bits is the mask as an argument, with CH and RSV 0. -/
theorem clrStatus_word (m : BitVec 3) : 8#4 ++ 0#57 ++ m = commandWord 8 0 (m.setWidth 32) := by
  apply BitVec.eq_of_toNat_eq
  rw [commandWord_toNat]
  simp only [toNat_append_eq_add, BitVec.toNat_setWidth, BitVec.ofNat_eq_ofNat, BitVec.toNat_ofNat]
  omega

/-- CLR_STATUS with the bits of its mask as numbers (R98). -/
theorem Status.clear_eq (m : BitVec 3) (st : Status) : st.clear m = {
    cmdErr := if m.toNat % 2 = 1 then false else st.cmdErr
    errCause := if m.toNat % 2 = 1 then 0 else st.errCause
    rangeWarn := if m.toNat / 2 % 2 = 1 then false else st.rangeWarn
    warnCause := if m.toNat / 2 % 2 = 1 then 0 else st.warnCause
    overrun := if m.toNat / 4 = 1 then false else st.overrun } := by
  have htop : m.toNat / 4 % 2 = m.toNat / 4 := by omega
  simp [Status.clear, BitVec.getLsbD, Nat.testBit_eq_decide_div_mod_eq, htop]

/-- Settles O23: the word is the encoding of CLR_STATUS (O1), which writes the stored fields of STATUS alone, so not
TICK_PEND. -/
theorem clearStatusResult : Obligations.ClearStatusResult := by
  intro m s
  constructor
  · rw [clrStatus_word]
    exact decodeEncodeRoundTrip (.clrStatus m) _ rfl
  · simp only [exec, execClrStatus, Status.clear_eq]

/-! ### Every mode-setting instruction (R89 to R91) -/

/-- A mode-setting instruction has one mode, and every next state it gives is one that has just entered it. -/
theorem exec_enters_mode {i : Instr} (hi : setsMode i = true) :
    ∃ m, ∀ {s t : State}, exec i s = .next t → ∃ u : State, t = u.enterMode m := by
  cases i with
  | raw => exact ⟨.raw, fun h => ⟨_, (Host.Outcome.next.inj h).symm⟩⟩
  | dc => exact ⟨.dc, fun h => ⟨_, (Host.Outcome.next.inj h).symm⟩⟩
  | sine =>
    refine ⟨.sine, fun h => ?_⟩
    obtain ⟨k, -, ht⟩ := execSine_next h
    exact ⟨_, ht⟩
  | tone =>
    refine ⟨.sine, fun h => ?_⟩
    obtain ⟨k, -, ht⟩ := execTone_next h
    exact ⟨_, ht⟩
  | modBpsk => exact ⟨.bpsk, fun h => ⟨_, (Host.Outcome.next.inj h).symm⟩⟩
  | modQpsk => exact ⟨.qpsk, fun h => ⟨_, (Host.Outcome.next.inj h).symm⟩⟩
  | mod8psk => exact ⟨.psk8, fun h => ⟨_, (Host.Outcome.next.inj h).symm⟩⟩
  | mod16qam => exact ⟨.qam16, fun h => ⟨_, (Host.Outcome.next.inj h).symm⟩⟩
  | sr | filterOff | filterRrc | clrStatus | timerEvent | tick | read | reset => cases hi

/-- Settles O25: a mode-setting instruction enters its own mode from every state, and no other instruction but the reset
writes MODE (O49). -/
theorem modeDependsOnlyOnCommand : Obligations.ModeDependsOnlyOnCommand := by
  constructor
  · intro i s s' t t' hi h h'
    obtain ⟨m, henter⟩ := exec_enters_mode hi
    obtain ⟨u, rfl⟩ := henter h
    obtain ⟨u', rfl⟩ := henter h'
    rfl
  · intro i s t hi hreset h
    obtain ⟨-, -, hwriters⟩ := registersChangeOnlyByTheirWriters i s t h
    obtain ⟨hmode, -⟩ := hwriters hreset
    by_contra hne
    exact Bool.false_ne_true (hi.symm.trans (hmode hne))

/-- Settles O24: a mode is entered with both indices 0. -/
theorem modeCommandZeroesIndices : Obligations.ModeCommandZeroesIndices := by
  intro i s t hi h
  obtain ⟨m, henter⟩ := exec_enters_mode hi
  obtain ⟨u, rfl⟩ := henter h
  exact ⟨rfl, rfl⟩

end Sys2Proof.Machine
end

section
/-! The dispatcher (R99 to R103): the results of SR and of a timer event, the words a tick's strobe commits, and the
service of a pending tick. -/

namespace Sys2Proof.Machine

/-! ### SR (R103) -/

theorem execSr_of_legal {r : Word32} {s : State} (h : rateLegal s.params.clkHz r = true) :
    execSr r s = .next { s with fsHz := r, reload := reloadCount s.params.clkHz r.toNat } :=
  congrArg Host.Outcome.next (if_pos h)

theorem execSr_of_illegal {r : Word32} {s : State} (h : ¬ rateLegal s.params.clkHz r = true) :
    execSr r s = .next (s.cmdReject .invalidRate) :=
  congrArg Host.Outcome.next (if_neg h)

/-- Settles O38: the word is the encoding of SR (O1), and the two ranges of the rate are those that `rateLegal` accepts
and refuses. -/
theorem setRateResult : Obligations.SetRateResult := by
  intro r s
  refine ⟨decodeEncodeRoundTrip (.sr r) _ rfl, fun hlow hhigh => ?legal, fun houtside => ?illegal⟩
  case legal => exact execSr_of_legal ((rateLegal_iff _ _).mpr ⟨hlow, hhigh⟩)
  case illegal =>
    have hillegal : ¬ rateLegal s.params.clkHz r = true := by
      rw [rateLegal_iff]
      omega
    exact execSr_of_illegal hillegal

/-- Settles O39: the clock fits 32 bits (R8), so the quotient does not wrap, and the rate is at most the clock. -/
theorem reloadIsQuotient : Obligations.ReloadIsQuotient := by
  intro p r hp hlow hhigh
  obtain ⟨-, -, ⟨-, hclk, -⟩, -⟩ := (params_valid_iff p).mp hp
  obtain ⟨hone, -⟩ := reloadCount_bounds hclk hlow hhigh
  exact ⟨reloadCount_toNat hclk r.toNat, hone⟩

/-! ### The timer event (R99) -/

theorem Status.timer_false (st : Status) : st.timer false = st := by
  simp [Status.timer]

theorem Status.timer_true (st : Status) : st.timer true = { st with overrun := true } := by
  simp [Status.timer]

theorem exec_timerEvent (s : State) :
    exec .timerEvent s = .next { s with status := s.status.timer s.tickPend, tickPend := true } := rfl

/-- Settles O40: the event keeps STATUS where no tick is pending, and merges with a pending one. -/
theorem timerEventResult : Obligations.TimerEventResult := by
  intro s
  constructor
  · intro hclear
    rw [exec_timerEvent, hclear, Status.timer_false]
  · intro hpend
    rw [exec_timerEvent, hpend, Status.timer_true, ← hpend]

/-! ### The tick (R100, R102) -/

/-- Settles O42: TICK_PEND is the first condition of a tick that answers. -/
theorem tickNeedsPendingRequest : Obligations.TickNeedsPendingRequest := by
  intro s t h
  obtain ⟨hpend, -⟩ := execTick_next h
  exact hpend

/-- A tick appends its own burst to the bursts of the trace. -/
theorem bursts_of_tick {s t : State} {bs : List (DacWord × DacWord)} (hbs : bursts s.trace = some bs)
    (h : exec .tick s = .next t) : ∃ b, bursts t.trace = some (bs ++ [b]) := by
  obtain ⟨-, v, -, rfl⟩ := execTick_next h
  refine ⟨(dacWord .q v.2, dacWord .i v.1), ?_⟩
  simpa [emitBurst_eq] using bursts_append_burst hbs v.1 v.2

/-- Settles O45: the tick's burst is the last of the trace, so the strobe commits the last of those before it. -/
theorem strobeCommitsBurstBefore : Obligations.StrobeCommitsBurstBefore := by
  intro s t bs hbs h
  obtain ⟨b, hb⟩ := bursts_of_tick hbs h
  simp only [committedWords, hb, List.dropLast_concat]

/-! ### No request stops the block (R106) -/

/-- A rate of at least 1 (R26) gives SINE and TONE an increment. -/
theorem State.Inv.exists_toneInc {s : State} (hs : s.Inv) (f : Int) : ∃ k, s.toneInc f = some k := by
  obtain ⟨-, -, ⟨hrate, -⟩, -⟩ := hs
  exact ⟨_, toneInc_eq_some f hrate⟩

theorem execSine_of_toneInc {c : Channel} {f : Word32} {s : State} {k : Code} (hk : s.toneInc (s32 f) = some k) :
    execSine c f s = .next (((s.warnFreq (s32 f)).setInc c k).enterMode .sine) := by
  simp only [execSine, hk]

theorem execTone_of_toneInc {f : Word32} {s : State} {k : Code} (hk : s.toneInc (s32 f) = some k) :
    execTone f s = .next ((((s.warnFreq (s32 f)).setInc .i k).setInc .q k).enterMode .sine) := by
  simp only [execTone, hk]

/-- A pending tick is serviced on the spot: the lookup answers inside the table (R22). -/
theorem State.Inv.exec_tick {s : State} (hs : s.Inv) (hpend : s.tickPend = true) :
    ∃ t, exec .tick s = .next t ∧ t.tickAck = true ∧ t.tickPend = false := by
  obtain ⟨-, ⟨hidx, -⟩, -⟩ := hs
  obtain ⟨vI, vQ, hexec⟩ := exec_tick_eq_next hpend hidx
  exact ⟨_, hexec, rfl, rfl⟩

/-- Under the invariant only a tick that is not enabled has no next state. -/
theorem State.Inv.exists_exec_next {s : State} (hs : s.Inv) {i : Instr} (hi : i = .tick → s.tickPend = true) :
    ∃ t, exec i s = .next t := by
  cases i with
  | sine c f =>
    obtain ⟨k, hk⟩ := hs.exists_toneInc (s32 f)
    exact ⟨_, execSine_of_toneInc hk⟩
  | tone f =>
    obtain ⟨k, hk⟩ := hs.exists_toneInc (s32 f)
    exact ⟨_, execTone_of_toneInc hk⟩
  | tick =>
    obtain ⟨t, ht, -⟩ := hs.exec_tick (hi rfl)
    exact ⟨t, ht⟩
  | raw | dc | modBpsk | modQpsk | mod8psk | mod16qam | sr | filterOff | filterRrc | clrStatus | timerEvent | read
  | reset => exact ⟨_, rfl⟩

/-- A rejected command word is served by recording the cause (R107). -/
theorem serveCommand_of_decode_error {s : State} {w : CmdWord} {c : RejectCause}
    (h : decodeCommand s.params w = .error c) : serveCommand w s = .next (s.cmdReject c) := by
  simp only [serveCommand, h]

/-- No command word is a tick (R59), so every one is served. -/
theorem State.Inv.exists_serveCommand_next {s : State} (hs : s.Inv) (w : CmdWord) :
    ∃ t, serveCommand w s = .next t := by
  cases hw : decodeCommand s.params w with
  | ok i =>
    obtain ⟨hdecode, -⟩ := decodeCommand_ok hw
    obtain ⟨-, hnotTick, -⟩ := decode_ok_isCommand hdecode
    rw [serveCommand_of_decode_ok hw]
    exact hs.exists_exec_next fun htick => absurd htick hnotTick
  | error c => exact ⟨_, serveCommand_of_decode_error hw⟩

/-- Under the invariant every request is served: the dispatcher's turn passes where its tick is not enabled (log 5). -/
theorem State.Inv.exists_serve_next {s : State} (hs : s.Inv) (r : Request) : ∃ t, serve r s = .next t := by
  cases r with
  | command w => exact hs.exists_serveCommand_next w
  | tick =>
    by_cases hpend : s.tickPend = true
    · obtain ⟨t, ht, -⟩ := hs.exec_tick hpend
      exact ⟨t, (if_pos hpend).trans ht⟩
    · exact ⟨s, if_neg hpend⟩
  | timerEvent | read | reset => exact ⟨_, rfl⟩

/-! ### What a request leaves to come -/

theorem noReset_cons (m : List Request) (later : List (List Request)) :
    noReset (m :: later) = true ↔ Request.reset ∉ m ∧ noReset later = true := by
  simp [noReset]

/-- A moment with one request less, or a moment over, is fewer steps to come. -/
theorem pendingSteps_leftOver_lt (r : Request) (rs : List Request) (later : List (List Request)) :
    pendingSteps (leftOver rs later) < pendingSteps ((r :: rs) :: later) := by
  rw [leftOver_eq_ite]
  split
  · simp only [pendingSteps]
    omega
  · simp only [pendingSteps, List.length_cons]
    omega

theorem noReset_leftOver {r : Request} {rs : List Request} {later : List (List Request)}
    (h : noReset ((r :: rs) :: later) = true) : noReset (leftOver rs later) = true := by
  obtain ⟨hmoment, hlater⟩ := (noReset_cons _ _).mp h
  rw [leftOver_eq_ite]
  split
  · exact hlater
  · exact (noReset_cons _ _).mpr ⟨List.not_mem_of_not_mem_cons hmoment, hlater⟩

/-- Where no reset is to come, the next request is the dispatcher's turn, or another request that is not a reset and
leaves fewer steps to come. -/
theorem nextRequest_of_noReset {inputs : List (List Request)} (h : noReset inputs = true) :
    (nextRequest inputs).1 = .tick ∨
      (nextRequest inputs).1 ≠ .tick ∧ (nextRequest inputs).1 ≠ .reset ∧
        noReset (nextRequest inputs).2 = true ∧ pendingSteps (nextRequest inputs).2 < pendingSteps inputs := by
  obtain ⟨-, hnext⟩ | ⟨m, later, rfl, hreset, -⟩ | ⟨later, -, hnext⟩ | ⟨r, rs, later, rfl, hmoment, hnext⟩ :=
    nextRequest_cases inputs
  · exact .inl (congrArg Prod.fst hnext)
  · obtain ⟨hno, -⟩ := (noReset_cons m later).mp h
    exact absurd hreset hno
  · exact .inl (congrArg Prod.fst hnext)
  · rw [hnext]
    by_cases htick : r = .tick
    · exact .inl htick
    · exact .inr ⟨htick, (List.ne_of_not_mem_cons hmoment).symm, noReset_leftOver h,
        pendingSteps_leftOver_lt r rs later⟩

/-! ### The service of a pending tick (R101) -/

/-- An instruction that is no tick and no reset leaves a pending tick pending (O49). -/
theorem exec_keeps_pending {i : Instr} {s t : State} (htick : i ≠ .tick) (hreset : i ≠ .reset)
    (h : exec i s = .next t) (hpend : s.tickPend = true) : t.tickPend = true := by
  obtain ⟨-, -, hwriters⟩ := registersChangeOnlyByTheirWriters i s t h
  obtain ⟨-, -, -, -, -, -, -, -, -, hwriter, -⟩ := hwriters hreset
  by_contra hcleared
  obtain rfl | hi := hwriter fun hsame => hcleared (hsame.trans hpend)
  · obtain rfl := Host.Outcome.next.inj h
    exact hcleared rfl
  · exact htick hi

/-- Serving any request but the dispatcher's turn and a reset records the rejection of a word, or runs an instruction
that is neither a tick nor a reset. -/
theorem serve_next {r : Request} {s t : State} (htick : r ≠ .tick) (hreset : r ≠ .reset) (h : serve r s = .next t) :
    (∃ c, t = s.cmdReject c) ∨ ∃ i, i ≠ .tick ∧ i ≠ .reset ∧ exec i s = .next t := by
  cases r with
  | command w =>
    obtain ⟨i, hi, hexec⟩ | ⟨c, -, ht⟩ := serveCommand_next h
    · obtain ⟨hdecode, -⟩ := decodeCommand_ok hi
      obtain ⟨-, hnotTick, -, hnotReset⟩ := decode_ok_isCommand hdecode
      exact .inr ⟨i, hnotTick, hnotReset, hexec⟩
    · exact .inl ⟨c, ht⟩
  | timerEvent => exact .inr ⟨.timerEvent, nofun, nofun, h⟩
  | tick => exact absurd rfl htick
  | read a => exact .inr ⟨.read a, nofun, nofun, h⟩
  | reset => exact absurd rfl hreset

/-- Any request but the dispatcher's turn and a reset leaves a pending tick pending, and the other requests to come. -/
theorem serve_keeps_pending {r : Request} {s t : State} (htick : r ≠ .tick) (hreset : r ≠ .reset)
    (h : serve r s = .next t) (hpend : s.tickPend = true) : t.tickPend = true ∧ t.inputs = s.inputs := by
  obtain ⟨c, rfl⟩ | ⟨i, hnotTick, hnotReset, hexec⟩ := serve_next htick hreset h
  · exact ⟨hpend, rfl⟩
  · obtain ⟨-, hinputs, -⟩ := registersChangeOnlyByTheirWriters i s t hexec
    exact ⟨exec_keeps_pending hnotTick hnotReset hexec hpend, hinputs⟩

/-- One step from a pending tick, no reset being to come: the tick is serviced, or it stays pending with fewer steps to
come. -/
theorem State.Inv.step_of_pending {s : State} (hs : s.Inv) (hpend : s.tickPend = true)
    (hno : noReset s.inputs = true) :
    ∃ t, step s = .next t ∧ (t.tickAck = true ∧ t.tickPend = false ∨
      t.tickPend = true ∧ noReset t.inputs = true ∧ pendingSteps t.inputs < pendingSteps s.inputs) := by
  obtain ⟨hvalid, -⟩ := hs.modeFree
  have hbegun : (s.beginStep (nextRequest s.inputs).2).Inv := hs.beginStep _
  have hstep : step s = serve (nextRequest s.inputs).1 (s.beginStep (nextRequest s.inputs).2) := if_pos hvalid
  obtain hturn | ⟨hnotTick, hnotReset, hlater, hfewer⟩ := nextRequest_of_noReset hno
  · obtain ⟨t, ht, hack⟩ := hbegun.exec_tick hpend
    rw [hturn] at hstep
    exact ⟨t, (hstep.trans (if_pos hpend)).trans ht, .inl hack⟩
  · obtain ⟨t, ht⟩ := hbegun.exists_serve_next (nextRequest s.inputs).1
    obtain ⟨hstill, hinputs⟩ := serve_keeps_pending hnotTick hnotReset ht hpend
    exact ⟨t, hstep.trans ht, .inr ⟨hstill, hinputs ▸ hlater, hinputs ▸ hfewer⟩⟩

/-- Settles O44, by induction on the steps to come: each step services the tick or leaves fewer of them, and keeps the
invariant (O13). -/
theorem pendingTickIsServiced : Obligations.PendingTickIsServiced := by
  intro s hs hpend hno
  induction hsteps : pendingSteps s.inputs using Nat.strong_induction_on generalizing s with
  | _ n ih =>
    subst hsteps
    obtain ⟨u, hstep, ⟨hack, hclear⟩ | ⟨hstill, hlater, hfewer⟩⟩ := hs.step_of_pending hpend hno
    · exact ⟨1, u, by omega, core_run_succ 0 hstep, hack, hclear⟩
    · obtain ⟨k, t, hk, hrun, hserviced⟩ :=
        ih _ hfewer u (stepKeepsInvariant s u hs hstep) hstill hlater rfl
      exact ⟨k + 1, t, by omega, (core_run_succ k hstep).trans hrun, hserviced⟩

end Sys2Proof.Machine
end

section
/-! Exceptions and atomicity: no state of the invariant stops the block, a reset goes before all that is ready with it, a
rejection reaches STATUS alone, and a request in a tick's service outlives it (R106, R107, R113, R115). -/

namespace Sys2Proof.Machine

/-! ### Progress (R106) -/

/-- Settles O12: the parameters are legal, so the step serves the request it takes, from a state that keeps the invariant
as well; there every request is served. -/
theorem stepNeverStops : Obligations.StepNeverStops := by
  intro s hs
  obtain ⟨hvalid, -⟩ := hs.modeFree
  obtain ⟨t, hserve⟩ := (hs.beginStep (nextRequest s.inputs).2).exists_serve_next (nextRequest s.inputs).1
  exact ⟨t, (step_eq_serve hvalid rfl).trans hserve⟩

/-! ### A reset among the requests of a moment (R115) -/

/-- In a moment that holds a reset the reset is taken, and the rest of the moment is gone. -/
theorem nextRequest_of_reset_mem {m : List Request} (later : List (List Request)) (hm : Request.reset ∈ m) :
    nextRequest (m :: later) = (.reset, later) :=
  if_pos hm

/-- RESET keeps the parameters and what is offered after it, and nothing else (R124). -/
theorem serve_reset (s : State) : serve .reset s = .next { State.resetFor s.params with inputs := s.inputs } := rfl

/-- Settles O8: the step takes the reset, and serving it reads of the state the parameters and the later moments. -/
theorem resetGoesFirst : Obligations.ResetGoesFirst := by
  intro s m later hvalid hinputs hm
  have hnext : nextRequest s.inputs = (.reset, later) := hinputs ▸ nextRequest_of_reset_mem later hm
  exact (step_eq_serve hvalid hnext).trans (serve_reset _)

/-! ### A rejected word (R107) -/

/-- Settles O11: a rejected word is served by `cmdReject`, which writes the cause's number of R28, cause by cause. -/
theorem rejectedWordChangesOnlyStatus : Obligations.RejectedWordChangesOnlyStatus := by
  intro s w c hreject
  have hserve : serve (.command w) s = .next (s.cmdReject c) := serveCommand_of_decode_error hreject
  rw [hserve]
  cases c with
  | reservedOpcode | reservedField | reservedSelector | invalidRate => rfl

/-! ### A request in a tick's service (R113) -/

/-- A tick acknowledges its request and leaves STATUS as it was (R100). -/
theorem tick_clears_pending {s t : State} (h : exec .tick s = .next t) : t.tickPend = false ∧ t.status = s.status := by
  obtain ⟨-, v, -, rfl⟩ := execTick_next h
  simp [emitBurst_eq]

/-- Settles O43: the event finds no tick pending after the tick, so it sets TICK_PEND and no overrun (O40). -/
theorem requestDuringTickIsKept : Obligations.RequestDuringTickIsKept := by
  intro s t h
  obtain ⟨hclear, hstatus⟩ := tick_clears_pending h
  obtain ⟨hevent, -⟩ := timerEventResult t
  exact ⟨_, hevent hclear, rfl, hstatus⟩

end Sys2Proof.Machine
end

section
/-! The reset input and the silence after it (R124 to R126): a reset leads to the reset state, and until a mode-setting
command every burst is the two headers alone. -/

namespace Sys2Proof.Machine

/-! ### The reset state (R124, R125) -/

/-- Settles O16: the arm of RESET reads the parameters and what is still offered. -/
theorem resetInstructionResult : Obligations.ResetInstructionResult :=
  fun s => serve_reset s

/-- Settles O50: after reset the mode is Raw, both raw magnitudes are 0, and no burst is sent. -/
theorem resetStateIsHeaderOnly : Obligations.ResetStateIsHeaderOnly :=
  fun _ _ hp => ⟨hp, rfl, rfl, rfl, 0, rfl⟩

/-! ### What serving a request can do (R44) -/

/-- A served request passes, is rejected, or runs one instruction; the instruction sets the mode only where the request is
the command word that decodes to it (R59, R89). -/
theorem serve_outcome {r : Request} {s t : State} (h : serve r s = .next t) :
    t = s ∨ (∃ c, t = s.cmdReject c) ∨
      ∃ i, exec i s = .next t ∧ (setsMode i = true → ∃ w, r = .command w ∧ decodeCommand s.params w = .ok i) := by
  cases r with
  | command w =>
    obtain ⟨i, hi, hexec⟩ | hreject := serveCommand_next h
    · exact .inr (.inr ⟨i, hexec, fun _ => ⟨w, rfl, hi⟩⟩)
    · obtain ⟨c, -, ht⟩ := hreject
      exact .inr (.inl ⟨c, ht⟩)
  | tick =>
    by_cases hpend : s.tickPend = true
    · exact .inr (.inr ⟨.tick, (if_pos hpend).symm.trans h, nofun⟩)
    · exact .inl (Host.Outcome.next.inj ((if_neg hpend).symm.trans h)).symm
  | timerEvent => exact .inr (.inr ⟨.timerEvent, h, nofun⟩)
  | read a => exact .inr (.inr ⟨.read a, h, nofun⟩)
  | reset => exact .inr (.inr ⟨.reset, h, nofun⟩)

/-- No request writes the parameters or what is offered after it (O49). -/
theorem serve_keeps_offer {r : Request} {s t : State} (h : serve r s = .next t) :
    t.params = s.params ∧ t.inputs = s.inputs := by
  obtain rfl | ⟨c, rfl⟩ | ⟨i, hexec, -⟩ := serve_outcome h
  · exact ⟨rfl, rfl⟩
  · exact ⟨rfl, rfl⟩
  · obtain ⟨hparams, hinputs, -⟩ := registersChangeOnlyByTheirWriters i s t hexec
    exact ⟨hparams, hinputs⟩

/-- A step takes one request and keeps the parameters. -/
theorem step_offer {s t : State} (h : step s = .next t) :
    t.params = s.params ∧ t.inputs = (nextRequest s.inputs).2 := by
  obtain ⟨-, hserve⟩ := step_next h
  exact serve_keeps_offer hserve

/-! ### Header bursts (R126) -/

/-- What R126 asks of a step from s to t: t has sent only header bursts, and a tick serviced by the step sent one. -/
def State.SendsOnlyHeaders (s t : State) : Prop :=
  t.HeaderOnly ∧ (t.tickAck = true → t.trace = s.trace ++ [.latch, .word 0xB000, .word 0x3000])

/-- In mode Raw the codes are the raw magnitudes, both 0 (R77). -/
theorem State.HeaderOnly.lookup_eq {s : State} (hs : s.HeaderOnly) : lookup s = some (0, 0) := by
  obtain ⟨-, hmode, hrawI, hrawQ, -⟩ := hs
  simp only [lookup, hmode, hrawI, hrawQ]

/-- A tick sends the words of the codes 0, which are the headers, and leaves mode and magnitudes as they were. -/
theorem State.HeaderOnly.sendsOnlyHeaders_of_tick {s t : State} (hs : s.HeaderOnly) (h : exec .tick s = .next t) :
    s.SendsOnlyHeaders t := by
  obtain ⟨-, v, hv, rfl⟩ := execTick_next h
  obtain rfl : v = (0, 0) := Option.some.inj (hv.symm.trans hs.lookup_eq)
  have htrace : ((((s.emitBurst 0 0).advance .i).advance .q).acknowledge).trace =
      s.trace ++ [.latch, .word 0xB000, .word 0x3000] := by
    simp [emitBurst_eq, dacWord_zero, header]
  obtain ⟨hvalid, hmode, hrawI, hrawQ, n, hn⟩ := hs
  exact ⟨⟨hvalid, hmode, hrawI, hrawQ, n + 1, by rw [htrace, hn, headerBursts_succ]⟩, fun _ => htrace⟩

/-- An instruction that neither sets the mode, nor is a tick or a reset, writes nothing that R126 speaks of (O49). -/
theorem State.HeaderOnly.of_exec_not_tick {i : Instr} {s t : State} (hs : s.HeaderOnly) (hi : setsMode i = false)
    (htick : i ≠ .tick) (hreset : i ≠ .reset) (h : exec i s = .next t) :
    t.HeaderOnly ∧ t.tickAck = s.tickAck := by
  obtain ⟨hvalid, hmode, hrawI, hrawQ, n, hn⟩ := hs
  obtain ⟨hparams, -, hwriters⟩ := registersChangeOnlyByTheirWriters i s t h
  obtain ⟨modeWriter, -, -, -, -, -, rawIWriter, rawQWriter, -, -, traceWriter, ackWriter, -⟩ := hwriters hreset
  have hnotRaw : ∀ c v, i ≠ .raw c v := by
    rintro c v rfl
    cases hi
  have hmode' : t.mode = s.mode := not_not.mp (mt modeWriter (ne_true_of_eq_false hi))
  have hrawI' : t.chI.raw = s.chI.raw := not_not.mp (mt rawIWriter (not_exists.mpr (hnotRaw .i)))
  have hrawQ' : t.chQ.raw = s.chQ.raw := not_not.mp (mt rawQWriter (not_exists.mpr (hnotRaw .q)))
  have htrace : t.trace = s.trace := not_not.mp (mt traceWriter htick)
  have hack : t.tickAck = s.tickAck := not_not.mp (mt ackWriter htick)
  exact ⟨⟨hparams ▸ hvalid, hmode'.trans hmode, hrawI'.trans hrawI, hrawQ'.trans hrawQ, n, htrace.trans hn⟩, hack⟩

/-- No instruction but a mode-setting one ends the header bursts: a tick adds one, a reset starts again with none. -/
theorem State.HeaderOnly.sendsOnlyHeaders_of_exec {i : Instr} {s t : State} (hs : s.HeaderOnly) (hack : s.tickAck = false)
    (hi : setsMode i = false) (h : exec i s = .next t) : s.SendsOnlyHeaders t := by
  by_cases htick : i = .tick
  · subst htick
    exact hs.sendsOnlyHeaders_of_tick h
  by_cases hreset : i = .reset
  · subst hreset
    obtain rfl := Host.Outcome.next.inj h
    obtain ⟨hvalid, -⟩ := hs
    exact ⟨resetStateIsHeaderOnly s.params s.inputs hvalid, nofun⟩
  · obtain ⟨ht, hsame⟩ := hs.of_exec_not_tick hi htick hreset h
    exact ⟨ht, fun hpulse => absurd (hsame.symm.trans hpulse) (ne_true_of_eq_false hack)⟩

/-- Settles O17: the step starts with the pulse of `tick_ack` over, and its request passes, is rejected, or runs an
instruction that does not set the mode. -/
theorem headerOnlyUntilModeCommand : Obligations.HeaderOnlyUntilModeCommand := by
  intro s t hs hcommand h
  obtain ⟨-, hserve⟩ := step_next h
  have hbegun : (s.beginStep (nextRequest s.inputs).2).HeaderOnly := hs
  obtain rfl | ⟨c, rfl⟩ | ⟨i, hexec, hsets⟩ := serve_outcome hserve
  · exact ⟨hbegun, nofun⟩
  · exact ⟨hbegun, nofun⟩
  · have hi : setsMode i = false := by
      by_contra hmode
      obtain ⟨w, hw, hdecode⟩ := hsets (eq_true_of_ne_false hmode)
      exact hmode (hcommand w i hw hdecode)
    exact hbegun.sendsOnlyHeaders_of_exec rfl hi hexec

/-! ### Runs without a mode-setting command (R126) -/

theorem noModeCommand_cons (p : Params) (m : List Request) (later : List (List Request)) :
    NoModeCommand p (m :: later) ↔
      (∀ w, Request.command w ∈ m → ∀ i, decodeCommand p w = .ok i → setsMode i = false) ∧ NoModeCommand p later :=
  List.forall_mem_cons

theorem NoModeCommand.leftOver {p : Params} {r : Request} {rs : List Request} {later : List (List Request)}
    (h : NoModeCommand p ((r :: rs) :: later)) : NoModeCommand p (leftOver rs later) := by
  obtain ⟨hmoment, hlater⟩ := (noModeCommand_cons _ _ _).mp h
  rw [leftOver_eq_ite]
  split
  · exact hlater
  · exact (noModeCommand_cons _ _ _).mpr ⟨fun w hw => hmoment w (List.mem_cons_of_mem r hw), hlater⟩

/-- Where no mode-setting command is offered, the request taken is none, and none is offered after it. -/
theorem NoModeCommand.nextRequest {p : Params} {inputs : List (List Request)} (h : NoModeCommand p inputs) :
    (∀ w i, (nextRequest inputs).1 = .command w → decodeCommand p w = .ok i → setsMode i = false) ∧
      NoModeCommand p (nextRequest inputs).2 := by
  obtain ⟨rfl, hnext⟩ | ⟨m, later, rfl, -, hnext⟩ | ⟨later, rfl, hnext⟩ | ⟨r, rs, later, rfl, -, hnext⟩ :=
    nextRequest_cases inputs
  · rw [hnext]
    exact ⟨nofun, h⟩
  · obtain ⟨-, hlater⟩ := (noModeCommand_cons _ _ _).mp h
    rw [hnext]
    exact ⟨nofun, hlater⟩
  · obtain ⟨-, hlater⟩ := (noModeCommand_cons _ _ _).mp h
    rw [hnext]
    exact ⟨nofun, hlater⟩
  · obtain ⟨hmoment, -⟩ := (noModeCommand_cons _ _ _).mp h
    rw [hnext]
    refine ⟨?_, h.leftOver⟩
    rintro w i rfl hdecode
    exact hmoment w List.mem_cons_self i hdecode

/-- From a state that has sent only header bursts, a run without a mode-setting command sends only header bursts: by
induction on its steps, each of which is one of O17's. -/
theorem State.HeaderOnly.of_run {k : Nat} {s t : State} (hs : s.HeaderOnly) (hno : NoModeCommand s.params s.inputs)
    (h : core.run k s = .next t) : t.HeaderOnly := by
  induction k generalizing s with
  | zero =>
    obtain rfl := Host.Outcome.next.inj h
    exact hs
  | succ k ih =>
    obtain ⟨u, hstep, hrun⟩ := core_run_next h
    obtain ⟨hcommand, hlater⟩ := hno.nextRequest
    obtain ⟨hu, -⟩ := headerOnlyUntilModeCommand s u hs hcommand hstep
    obtain ⟨hparams, hinputs⟩ := step_offer hstep
    have hnext : NoModeCommand u.params u.inputs := by rwa [hparams, hinputs]
    exact ih hu hnext hrun

/-- Settles O51: the run starts from the reset state (O50). -/
theorem headerOnlyWithoutModeCommand : Obligations.HeaderOnlyWithoutModeCommand := by
  intro p inputs k t hp hno h
  obtain ⟨-, -, -, -, hbursts⟩ := (resetStateIsHeaderOnly p inputs hp).of_run hno h
  exact hbursts

end Sys2Proof.Machine
end
